-- ==== Sys2Proof/Word.lean ====
section
/-!
DEFINITION. The words of the machine: bytes, 64-bit registers, and bytes that may carry poison.
-/
namespace Sys2Proof

/-- A byte of memory or of a message. -/
abbrev Byte := BitVec 8

/-- A register (R18: every register is 64 bits wide). -/
abbrev Word := BitVec 64

/-- A byte on its way through the machine: `none` is a byte that carries poison, whose value bits the spec leaves
unspecified (R159), so the machine holds none. -/
abbrev PByte := Option Byte

/-- Bytes with their poison: a 64-byte line, a vector register, the contents of a buffer. -/
abbrev Line := List PByte

/-- Bits `hi` to `lo` of a number (R10: bit 0 is the least significant). -/
def bits (x hi lo : Nat) : Nat := (x >>> lo) % 2 ^ (hi - lo + 1)

/-- Replace bits `hi` to `lo` of a number. -/
def setBits (x hi lo v : Nat) : Nat :=
  x - (bits x hi lo) * 2 ^ lo + (v % 2 ^ (hi - lo + 1)) * 2 ^ lo

/-- The number that bytes spell, the lowest first (R11). -/
def leNat : List Byte → Nat
  | [] => 0
  | b :: bs => b.toNat + 256 * leNat bs

/-- The `n` bytes of a number, the lowest first (R11). -/
def leBytes : Nat → Nat → List Byte
  | 0, _ => []
  | n + 1, x => BitVec.ofNat 8 x :: leBytes n (x / 256)

/-- A number of `n` bits read as two's complement. -/
def sext (n x : Nat) : Int := if x % 2 ^ n < 2 ^ (n - 1) then (x % 2 ^ n : Nat) else (x % 2 ^ n : Nat) - (2 ^ n : Nat)

/-- An integer as `n` bits of two's complement. -/
def unsext (n : Nat) (x : Int) : Nat := (x % (2 ^ n : Nat)).toNat

end Sys2Proof
end

