-- ==== Sys2Proof/Syntax.lean ====
section
/-!
DEFINITION. The commands.
-/
namespace Sys2Proof

/-- A residue, parity or duplicate-compare mismatch that falls in a bundle (R149). `lane` is the column of an array, the lane of a product or of
a register, of an address generator 16 × its unit code + its index, and of a template record 64 × its table (0 array, 1 matrix-vector unit,
2 vector unit) + its number; `row` is the array's accumulator row. -/
structure ResHit where
  core : Nat
  /-- UNIT of COR_RESLOG1: 1 array, 2 matrix-vector unit, 3 vector unit, 4 address generator, 5 template record, 6 attention
  engine, 7 Weevil -/
  unit : Nat
  /-- 1 residue, 2 parity, 3 duplicate compare -/
  check : Nat
  lane : Nat
  row : Nat
  /-- 0 the result of this cycle, 1 an accumulator, 2 an output converter, 3 a row's weight register (R180) -/
  part : Nat
  deriving DecidableEq, Repr

/-- A mismatch in a side stack (R334, R362): `unit` 0 to 15 is a Scarab unit and `lane` the result it falls on, 16 is the
channel's adder and `lane` its lane. -/
structure SideHit where
  stk : Nat
  ch : Nat
  unit : Nat
  lane : Nat
  /-- 1 residue, 2 parity, 3 duplicate compare -/
  check : Nat
  deriving DecidableEq, Repr

/-- The header fields of an ECP command that its sender chooses (R418): the queue pair it arrives on, SESSION and TAG; and whether its
packet is CE-marked (R410). -/
structure EcpHdr where
  qp : Fin 256
  session : BitVec 32
  tag : BitVec 32
  ce : Bool := false
  deriving DecidableEq, Repr

/-- What a connection request carries (R410): the host's QPN and GID (its first byte the most significant), the path MTU 1,024, 2,048 or
4,096, the local ACK timeout, the retry count and the RNR retry count. -/
structure CmReq where
  rqpn : BitVec 24
  gid : BitVec 128
  mtu : Fin 3
  ackTimeout : BitVec 5
  retryCount : BitVec 3
  rnrRetry : BitVec 3
  deriving DecidableEq, Repr

/-- The header of a received Cicada frame (R445), its CRC good and its TYPE that of the command. -/
structure FrameHdr where
  seq : BitVec 32
  ackv : Bool
  nak : Bool
  ack : BitVec 32
  step : BitVec 64
  deriving DecidableEq, Repr

/-- The payload of a received HEARTBEAT (R450). -/
structure HeartbeatIn where
  uid : BitVec 64
  /-- true: STANDBY -/
  role : Bool
  mode : BitVec 2
  pstate : BitVec 3
  state : BitVec 8
  bcause : BitVec 4
  image : BitVec 64
  mapdig : BitVec 64
  deriving DecidableEq, Repr

/-- What the outside brings in a bundle: mismatches (R149), cores whose control parity fails (R152), upsets of stored symbols (address,
symbol of its word, error), upsets of the loop buffer (core, code word, symbol, error), mismatches in the side stacks. -/
structure BundleEnv where
  hits : List ResHit := []
  ctrlPar : List Nat := []
  upsets : List (Nat × Nat × Nat) := []
  lbups : List (Nat × Nat × Nat × Nat) := []
  side : List SideHit := []
  deriving DecidableEq, Repr

/-- What the diodes and meters show in a sample: readings of A and B in 0.01 °C by physical cluster index, and by 132 + s for stack s;
regulator currents in mA by physical cluster index; power of the stacks in mW. Units not named keep their latest values. -/
structure ThermIn where
  snsr : List (Nat × Int × Int) := []
  amps : List (Nat × List Nat) := []
  watts : List (Nat × Nat) := []
  deriving DecidableEq, Repr

/-- What a rail sample shows (R472): voltages in mV by UNIT of EV_RAIL, and for each half the currents of VDD_IN, VDD_VLT and VDD_STK in 0.1 A. -/
structure RailIn where
  volts : List (Nat × Nat) := []
  amps : List (Nat × Nat × Nat) := []
  deriving DecidableEq, Repr

/-- A failed known-answer run (R506 to R508): the engine as BST_KARLOG names it. -/
structure KarFail where
  half : Fin 2
  /-- physical cluster 0 to 65 of the half, or 0x80 + side stack -/
  unit : Nat
  /-- core index, or side channel -/
  sub : Nat
  /-- 1 array, 2 matrix-vector unit, 3 vector unit, 4 scratch, 5 attention engine, 6 Weevil, 7 router, 8 adder, 9 Scarab -/
  engine : Nat
  siglo : BitVec 32
  /-- the array rows that failed, and whether the run repeated with them repaired passed -/
  rows : List (Fin 66) := []
  repaired : Bool := false
  deriving DecidableEq, Repr

/-- What the work of a bring-up phase finds (R502). -/
structure PhaseIn where
  /-- a fuse array header that cannot be read, or a root PLL, of a half, that does not lock -/
  stop : Bool := false
  pllHalf : Fin 2 := 0
  /-- failed connections of physical vault channels, numbered 32 × cluster index + 4 × core + channel; channels that fail training -/
  conns : List (Fin 4224 × Fin 280) := []
  vaultOut : List (Fin 4224) := []
  /-- failed pins of side channels, numbered 32 × stack + channel; channels that fail training -/
  pins : List (Fin 256 × Fin 72) := []
  sideOut : List (Fin 256) := []
  /-- stall lanes lost: 2 × direction + lane -/
  lanesBad : List (Fin 4) := []
  /-- regulators that fail their test, by physical cluster index, and whether VDD_VLT at the cluster's switch is in range -/
  regs : List (Fin 132 × Fin 4 × Bool) := []
  kar : List KarFail := []
  /-- grant slots whose licence fails verification -/
  badLic : List (Fin 16) := []
  deriving DecidableEq, Repr

/-- What the steps of a Molt or a half reset find (R510): failed connections of the half's physical vault channels, numbered
32 × cluster + 4 × core + channel; failed pins of side channels; failed known-answer runs; fuse slots that read back wrong. -/
structure MoltIn where
  conns : List (Fin 2112 × Fin 280) := []
  pins : List (Fin 256 × Fin 72) := []
  kar : List KarFail := []
  badSlots : List (Fin 512) := []
  deriving DecidableEq, Repr

/-- The commands: one constructor for each row of the opcode table, with what its sender chooses or what the world around the block shows
in it. Numbers of units are as their rules number them; `h` is the header of an ECP command or of a Cicada frame. -/
inductive Instr where
  /-- BUNDLE, R62 -/
  | bundle (x : BundleEnv)
  /-- FREEZE_BEGIN, R96 -/
  | freezeBegin
  /-- STALL_RELEASE, R98 -/
  | stallRelease (src half unit : Nat)
  /-- FREEZE_LIFT, R98 -/
  | freezeLift
  /-- GATING_WINDOW, R102 -/
  | gatingWindow
  /-- STALL_TIMEOUT, R101 -/
  | stallTimeout
  /-- DEBUG_STEP, R103 -/
  | debugStep (n : BitVec 16)
  /-- DEBUG_REFREEZE, R103 -/
  | debugRefreeze
  /-- STREAM_LOAD, R60 -/
  | streamLoad (h : EcpHdr) (id : BitVec 64)
  /-- STREAM_START, R105 -/
  | streamStart (h : EcpHdr) (force : Bool)
  /-- START_CODE, R105 -/
  | startCode
  /-- STREAM_HALT, R111 -/
  | streamHalt (h : EcpHdr) (mode : BitVec 8)
  /-- STREAM_RESUME, R108 -/
  | streamResume (h : EcpHdr)
  /-- MAILBOX_WRITE, R91 -/
  | mailboxWrite (slot : Fin 1024) (off : Fin 64) (d : List Byte)
  /-- MAILBOX_PRESENT, R91 -/
  | mailboxPresent (slot : Fin 1024)
  /-- ARR_ROWMAP_WRITE, R181 -/
  | arrRowmapWrite (core : Fin 1024) (v : BitVec 64)
  /-- REFRESH_INTERVAL, R214 -/
  | refreshInterval (half : Fin 2)
  /-- CHMAP_SET, R226 -/
  | chmapSet (h : EcpHdr) (kind action : BitVec 8) (index : BitVec 16)
  /-- RETRAIN_DONE, R227 -/
  | retrainDone (bad : List (Fin 280))
  /-- KV_REFILL, R255 -/
  | kvRefill (h : EcpHdr) (mask : BitVec 1024)
  /-- ATTENTION_CALL, R260 -/
  | attentionCall (core : Fin 1024) (hit : Bool)
  /-- NOP, R281 -/
  | nop (cl : Fin 128) (ch : Fin 8) (mismatch : Bool)
  /-- COPY, R283 -/
  | copy (cl : Fin 128) (ch : Fin 8) (mismatch : Bool)
  /-- GATHER, R284 -/
  | gather (cl : Fin 128) (ch : Fin 8) (mismatch : Bool)
  /-- SCATTER, R284 -/
  | scatter (cl : Fin 128) (ch : Fin 8) (mismatch : Bool)
  /-- PAGE_APPEND, R244 -/
  | pageAppend (cl : Fin 128) (ch : Fin 8) (mismatch : Bool)
  /-- PAGE_COW, R245 -/
  | pageCow (cl : Fin 128) (ch : Fin 8) (mismatch : Bool)
  /-- PAGE_SHARE, R246 -/
  | pageShare (cl : Fin 128) (ch : Fin 8) (mismatch : Bool)
  /-- PAGE_FREE, R246 -/
  | pageFree (cl : Fin 128) (ch : Fin 8) (mismatch : Bool)
  /-- TREE_WALK, R266 -/
  | treeWalk (cl : Fin 128) (ch : Fin 8) (mismatch : Bool)
  /-- TOPK_ROUTE, R293 -/
  | topkRoute (cl : Fin 128) (ch : Fin 8) (mismatch : Bool)
  /-- HOST_WINDOW, R297 -/
  | hostWindow (cl : Fin 128) (ch : Fin 8) (mismatch : Bool)
  /-- PAGE_UNIT_TAKE, R282 -/
  | pageUnitTake (cl : Fin 128)
  /-- DESCRIPTOR_COMPLETE, R277 -/
  | descriptorComplete (cl : Fin 128) (ch : Fin 8)
  /-- WVL_DISABLE, R301 -/
  | wvlDisable (cl : Fin 128) (ch : Fin 8)
  /-- WVL_ENABLE, R301 -/
  | wvlEnable (cl : Fin 128) (ch : Fin 8)
  /-- WVL_CLEAR, R301 -/
  | wvlClear (cl : Fin 128) (ch : Fin 8)
  /-- ACCESS, R317 -/
  | access (stk : Fin 8) (ch : Fin 32) (hits : List SideHit)
  /-- REFWIN, R325 -/
  | refwin (stk : Fin 8) (ch : Fin 32) (hits : List SideHit)
  /-- SVC, R324 -/
  | svc (stk : Fin 8) (ch : Fin 32) (hits : List SideHit)
  /-- REDOPEN, R331 -/
  | redopen (stk : Fin 8) (ch : Fin 32) (hits : List SideHit)
  /-- REDCLOSE, R333 -/
  | redclose (stk : Fin 8) (ch : Fin 32) (hits : List SideHit)
  /-- REDUCTION_DEADLINE, R333 -/
  | reductionDeadline (stk : Fin 8) (ch : Fin 32)
  /-- LEASE, R347 -/
  | lease (stk : Fin 8) (ch : Fin 32) (hits : List SideHit)
  /-- BCAST, R353 -/
  | bcast (stk : Fin 8) (ch : Fin 32) (hits : List SideHit)
  /-- LEASE_WINDOW_END, R348 -/
  | leaseWindowEnd (stk : Fin 8) (ch : Fin 32)
  /-- CACHE_LANE_ACCESS, R336 -/
  | cacheLaneAccess (stk lane : Fin 8)
  /-- SIDE_RESERVED_SLOT, R309 -/
  | sideReservedSlot (stk : Fin 8) (ch : Fin 32)
  /-- SCB_CTL_WRITE, R365 -/
  | scbCtlWrite (stk : Fin 4) (en : Bool)
  /-- FLIT_LAUNCH, R392 -/
  | flitLaunch (m : Fin 16) (d : Fin 2)
  /-- DATA_FLIT, R396 -/
  | dataFlit (m : Fin 16) (d : Fin 2) (corrupt : Bool)
  /-- IDLE_FLIT, R397 -/
  | idleFlit (m : Fin 16) (d : Fin 2) (bad : List (Fin 68))
  /-- WIDTHCHK_FLIT, R399 -/
  | widthchkFlit (m : Fin 16) (d : Fin 2) (code : BitVec 8)
  /-- LINE_DUE, R392 -/
  | lineDue (m : Fin 16) (d : Fin 2)
  /-- REPLAY_STALL_POINT, R393 -/
  | replayStallPoint (m : Fin 16) (d : Fin 2)
  /-- LATE_LAUNCH, R394 -/
  | lateLaunch (m : Fin 16) (d : Fin 2)
  /-- REPLAY_TIMEOUT, R396 -/
  | replayTimeout (m : Fin 16) (d : Fin 2)
  /-- STALL_LANE_FRAME, R388 -/
  | stallLaneFrame (d : Fin 2) (err0 err1 : BitVec 32)
  /-- LINK_TRAIN_DONE, R399 -/
  | linkTrainDone (m : Fin 16) (fail0 fail1 : BitVec 68) (f0 f1 : BitVec 4)
  /-- LINK_TRAIN_TIMEOUT, R399 -/
  | linkTrainTimeout (m : Fin 16)
  /-- FAST_RETRAIN_DONE, R397 -/
  | fastRetrainDone (m : Fin 16)
  /-- ITL_RETRAIN, R398 -/
  | itlRetrain (m : Fin 16)
  /-- ITL_FENCE, R399 -/
  | itlFence (m : Fin 16)
  /-- ETH_LINK_CHANGE, R408 -/
  | ethLinkChange (p : Fin 8) (rate : BitVec 2)
  /-- PFC_FRAME, R407 -/
  | pfcFrame (p : Fin 8) (enable time : BitVec 8)
  /-- ARP, R406 -/
  | arp (p : Fin 8) (v6 : Bool) (a : BitVec 128)
  /-- CM_REQ, R410 -/
  | cmReq (p : Fin 8) (x : CmReq)
  /-- CM_DREQ, R413 -/
  | cmDreq (q : Fin 256)
  /-- RDMA_WRITE, R411 -/
  | rdmaWrite (q : Fin 256) (va : BitVec 64) (rkey : BitVec 32) (ce : Bool) (d : List Byte)
  /-- RDMA_READ, R411 -/
  | rdmaRead (q : Fin 256) (va : BitVec 64) (rkey : BitVec 32) (ce : Bool) (len : BitVec 31)
  /-- QP_ERROR, R413 -/
  | qpError (q : Fin 256)
  /-- HOST_LINE_TIMEOUT, R415 -/
  | hostLineTimeout
  /-- SESSION_OPEN, R427 -/
  | sessionOpen (h : EcpHdr)
  /-- SESSION_PROOF, R428 -/
  | sessionProof (h : EcpHdr) (tag : BitVec 256)
  /-- SESSION_CLOSE, R429 -/
  | sessionClose (h : EcpHdr)
  /-- EVENT_CFG, R426 -/
  | eventCfg (h : EcpHdr) (minsev : BitVec 8)
  /-- NONCE_LAPSE, R428 -/
  | nonceLapse (q : Fin 256)
  /-- AUTHLOCK_EXPIRE, R428 -/
  | authlockExpire (q : Fin 256)
  /-- REG_READ, R425 -/
  | regRead (h : EcpHdr) (addr : BitVec 64) (n : BitVec 8)
  /-- REG_WRITE, R425 -/
  | regWrite (h : EcpHdr) (addr : BitVec 64) (vs : List (BitVec 64))
  /-- REGISTER_WRITE, R21 -/
  | registerWrite (addr v : BitVec 64)
  /-- ERROR_RECORD_CLEAR, R535 -/
  | errorRecordClear (addr : BitVec 64)
  /-- COUNTER_CLEAR, R160 -/
  | counterClear (addr v : BitVec 64)
  /-- SNS_CLEAR, R488 -/
  | snsClear (all : Bool) (inst : BitVec 8)
  /-- MEM_READ, R425 -/
  | memRead (h : EcpHdr) (addr : BitVec 64) (n : BitVec 8)
  /-- MOLT_HALF, R510 -/
  | moltHalf (h : EcpHdr) (half : BitVec 8) (commit : Bool)
  /-- LBIST_RUN, R531 -/
  | lbistRun (h : EcpHdr) (half : BitVec 8) (pmask : BitVec 128)
  /-- LICENCE_INSTALL, R527 -/
  | licenceInstall (h : EcpHdr) (d : List Byte)
  /-- LICENCE_LAPSE, R529 -/
  | licenceLapse (k : Fin 16)
  /-- SVCTIME_TICK, R526 -/
  | svctimeTick
  /-- BBR_READ, R549 -/
  | bbrRead (h : EcpHdr) (first : BitVec 64) (count : BitVec 8)
  /-- BBR_ACK, R551 -/
  | bbrAck (h : EcpHdr) (seq : BitVec 64)
  /-- BBR_PROGRAM, R545 -/
  | bbrProgram (result : Fin 3)
  /-- BBR_ERASE, R544 -/
  | bbrErase (dev good : Bool)
  /-- PAIR_MODE, R441 -/
  | pairMode (h : EcpHdr) (mode role path flags relay : BitVec 8) (uid jbuf : BitVec 64) (jlen : BitVec 16)
  /-- PAIR_SEEK_TIMEOUT, R442 -/
  | pairSeekTimeout
  /-- HEARTBEAT_SEND, R452 -/
  | heartbeatSend
  /-- HEARTBEAT, R451 -/
  | heartbeat (h : FrameHdr) (x : HeartbeatIn)
  /-- HEARTBEAT_MISS, R452 -/
  | heartbeatMiss
  /-- NOTICE, R453 -/
  | notice (h : FrameHdr) (cause : BitVec 8)
  /-- HASH, R460 -/
  | hash (h : FrameHdr) (hash : BitVec 64) (pois : Bool)
  /-- STEP_HASH, R459 -/
  | stepHash
  /-- INPUT, R456 -/
  | input (h : FrameHdr) (entries : List (Fin 1024 × BitVec 512))
  /-- INEND, R456 -/
  | inend (h : FrameHdr) (count cond : BitVec 16)
  /-- INPUT_RECORD_WRITE, R456 -/
  | inputRecordWrite
  /-- JLINE, R463 -/
  | jline (h : FrameHdr) (rs : List (BitVec 64 × BitVec 512 × BitVec 8))
  /-- JREG, R463 -/
  | jreg (h : FrameHdr) (core : Fin 1024) (free defer reserve live : BitVec 64)
  /-- JEND, R463 -/
  | jend (h : FrameHdr) (frames : BitVec 64) (base : Bool)
  /-- SYNC, R464 -/
  | sync (h : FrameHdr) (rs : List (BitVec 64 × BitVec 512 × BitVec 8))
  /-- RAIL_SAMPLE, R472 -/
  | railSample (x : RailIn)
  /-- POWER_FAIL, R473 -/
  | powerFail (cause : BitVec 3) (v0 v1 : BitVec 16)
  /-- REGULATOR_FAIL, R475 -/
  | regulatorFail (pi : Fin 132) (r : Fin 4) (vret : Bool)
  /-- DROOP, R479 -/
  | droop (pi : Fin 132) (r : Fin 4) (code : BitVec 8)
  /-- CHRYSALIS_ENTER, R480 -/
  | chrysalisEnter (pi : Fin 132)
  /-- CHRYSALIS_EXIT, R480 -/
  | chrysalisExit (pi : Fin 132)
  /-- CHRYSALIS_PHASE_END, R480 -/
  | chrysalisPhaseEnd (pi : Fin 132)
  /-- THERMAL_EVAL, R483 -/
  | thermalEval (x : ThermIn)
  /-- TRAY_POST, R490 -/
  | trayPost (b : BitVec 128) (pm : BitVec 16) (pec : Bool)
  /-- COOL_STALE, R491 -/
  | coolStale
  /-- POWER_CAP_EVAL, R493 -/
  | powerCapEval (pm : BitVec 16)
  /-- AON_REMOVED, R497 -/
  | aonRemoved
  /-- BRINGUP, R502 -/
  | bringup (testMode : Bool)
  /-- PHASE_TIMEOUT, R503 -/
  | phaseTimeout (x : PhaseIn)
  /-- COLD_RESET, R520 -/
  | coldReset
  /-- WARM_RESET, R520 -/
  | warmReset (h : EcpHdr)
  /-- WARM_RESET_PIN, R568 -/
  | warmResetPin
  /-- HALF_RESET, R523 -/
  | halfReset (h : EcpHdr) (half : BitVec 8)
  /-- PLL_UNLOCK, R46 -/
  | pllUnlock (half : Fin 2)
  /-- STATUS, R434 -/
  | status
  /-- TELEM, R492 -/
  | telem
  /-- KEY_SET, R432 -/
  | keySet (key : BitVec 256) (pres pec : Bool)
  /-- KEY_CLEAR, R432 -/
  | keyClear (pres pec : Bool)
  /-- BBR_INFO, R434 -/
  | bbrInfo
  /-- BBR_SEL, R434 -/
  | bbrSel (seq : BitVec 64) (pec : Bool)
  /-- BBR_ENTRY, R549 -/
  | bbrEntry
  /-- REG_SEL, R434 -/
  | regSel (addr : BitVec 64) (pec : Bool)
  /-- REG_VAL, R434 -/
  | regVal
  /-- ETH_ADDR, R434 -/
  | ethAddr (p : BitVec 8) (ip4 : BitVec 32) (ip6 : BitVec 128) (pec : Bool)
  /-- SMBUS_TIMEOUT, R572 -/
  | smbusTimeout
  /-- EXTEST, R576 -/
  | extest (pins : BitVec 12) (shift : BitVec 16)
  /-- IDCODE, R574 -/
  | idcode
  /-- SAMPLE_PRELOAD, R574 -/
  | samplePreload (pins : BitVec 12) (shift : BitVec 16)
  /-- HIGHZ, R576 -/
  | highz (shift : BitVec 16)
  /-- CLAMP, R576 -/
  | clamp (shift : BitVec 16)
  /-- BYPASS, R574 -/
  | bypass (shift : BitVec 16)
  /-- JTAG_RESET, R576 -/
  | jtagReset
  /-- AON_IN_RANGE, R573 -/
  | aonInRange (straps : BitVec 3)
  /-- ALERT_RESPONSE, R435 -/
  | alertResponse
  /-- LANE_LOCK_LOST, R397 -/
  | laneLockLost (m : Fin 16) (d : Fin 2) (l : Fin 68)
  /-- FRAMING_LOST, R398 -/
  | framingLost (m : Fin 16)
  /-- BAD_FRAME, R446 -/
  | badFrame
  /-- MALFORMED_MESSAGE, R421 -/
  | malformedMessage (h : EcpHdr) (op : BitVec 16)
  /-- INVALID_REQUEST, R410 -/
  | invalidRequest (q : Fin 256)
  /-- DISCARDED_FRAME, R406 -/
  | discardedFrame (p : Fin 8) (pause : Bool)
  /-- CM_RTU, R410 -/
  | cmRtu (q : Fin 256)
  /-- ROCE_ACK, R410 -/
  | roceAck (q : Fin 256) (kind : Fin 3) (n : BitVec 24)
  /-- LOCAL_ACK_TIMEOUT, R410 -/
  | localAckTimeout (q : Fin 256)
  /-- ETH_CTL_WRITE, R437 -/
  | ethCtlWrite (p : Fin 8) (v : BitVec 64)
  /-- MOLT_DONE, R510 -/
  | moltDone (x : MoltIn)
  /-- LBIST_DONE, R531 -/
  | lbistDone (fails : List (Fin 66))
  /-- HALF_RESET_DONE, R523 -/
  | halfResetDone (x : MoltIn)
  /-- WARM_RESET_DONE, R568 -/
  | warmResetDone
  /-- PHASE_DONE, R502 -/
  | phaseDone (x : PhaseIn)
  deriving DecidableEq, Repr

end Sys2Proof
end

