-- ==== Sys2Proof/Decode.lean ====
section
/-!
DEFINITION. Words of commands. The rows of the opcode table have no bits: what a command carries is the operands of its constructor.
-/
namespace Sys2Proof

/-- The command that the bits of a table row spell: none. -/
def decodeTableWord (nbits w : Nat) : Option Instr :=
  match nbits, w with
  | _, _ => none

end Sys2Proof
end

