-- ==== Sys2Proof/Config.lean ====
section
/-!
DEFINITION. The free values: constants without a body that stand for every value the spec leaves open, so that nothing
can be proved of them. The first family is applied to the counter `State.free`, which each use advances.
-/
namespace Sys2Proof.Config

/-- A bit pattern nobody fixes (R159, R14, R427): applied to the free-value counter. -/
opaque freeNat : Nat → Nat

/-- A value that the spec does not state though it follows from no event (R53): its kind, and the operands it depends on. Kinds: 1 an element
of VCVT (source and destination format, CSCALE, the element's bits), 2 an element of a VQUANT block that holds a NaN (formats, the block's
lanes, the lane), 3 the destination line of a scratch move (core, slot, generator, its place in its run), 4 the SCNT of a trap whose word no
followed path reaches (core, word, SCNT), 5 the offset of an indirect REDCLOSE line whose offset word is unreadable. -/
opaque freeOf : Nat → List Nat → Nat

/-- What a byte holds whose contents are undefined (R227, R477), and the syndromes of such a word: a free value, and an address. -/
opaque undefByte : Nat → Nat → BitVec 8
opaque undefSyn : Nat → Nat → Nat

/-- What the factory fuses hold for a register field whose reset entry is F: its device address (R21). -/
opaque fuse : Nat → Nat

/-- Whether a licence message carries a valid signature (R525: the verification keys are not in the spec). -/
opaque sigValid : List Byte → Bool

/-- The calibrated capacitance and conductance constants of the thermal model, in micro-units (R485: calibration is the
part's own): instance, node. -/
opaque thermalC : Nat → Nat → Nat
opaque thermalG : Nat → Nat → Nat

/-- The 16 bytes of a STATUS reply (R434: the spec lists its content and gives no layout): bring-up phase, stream state, shutdown latch, key
present, alert sources and last status, and the number of the byte. -/
opaque statusByte : Nat → Nat → Nat → Nat → Nat → Nat → Nat → Byte

/-- SEV of the black-box entry types whose severity the spec does not state (R547, R548): REPAIR_PENDING, BRINGUP, MOLT_END, FUSE_RECORD
and ROLLUP. -/
opaque entrySev : Nat → Nat

end Sys2Proof.Config
end

