-- ==== Sys2Proof/Machine/Float.lean ====
section
/-!
DEFINITION. The number formats of R124 to R131 and exact arithmetic over them: a value is decoded exactly, operated on
exactly, and rounded once to nearest with ties to even (R127).
-/
namespace Sys2Proof.Machine

/-- An exact value: `fin neg m e` is (−1)^neg × m × 2^e; a zero keeps its sign. -/
inductive FV where
  | nan
  | inf (neg : Bool)
  | fin (neg : Bool) (m : Nat) (e : Int)
  deriving DecidableEq, Repr

/-- What a format does above its largest finite value (R124). -/
inductive FTop where
  /-- infinities and NaN as IEEE 754 -/
  | ieee
  /-- no infinity; the all-ones magnitude is NaN (E4M3) -/
  | nanOnly
  /-- neither -/
  | finite
  deriving DecidableEq, Repr

/-- The formats of R131, by their codes; `none` is a reserved code. -/
inductive Fmt where
  | fp32 | bf16 | e4m3 | e5m2 | e2m3 | e3m2 | e2m1 | int8 | int4 | int32 | int16 | e8m0
  deriving DecidableEq, Repr

/-- R131: the format a 4-bit code names. -/
def Fmt.ofCode : Nat → Option Fmt
  | 0 => some .fp32 | 1 => some .bf16 | 2 => some .e4m3 | 3 => some .e5m2 | 4 => some .e2m3 | 5 => some .e3m2
  | 6 => some .e2m1 | 7 => some .int8 | 8 => some .int4 | 9 => some .int32 | 10 => some .int16 | 11 => some .e8m0
  | _ => none

/-- The code of a format. -/
def Fmt.code : Fmt → Nat
  | .fp32 => 0 | .bf16 => 1 | .e4m3 => 2 | .e5m2 => 3 | .e2m3 => 4 | .e3m2 => 5 | .e2m1 => 6 | .int8 => 7 | .int4 => 8
  | .int32 => 9 | .int16 => 10 | .e8m0 => 11

/-- Bits of an element. -/
def Fmt.width : Fmt → Nat
  | .fp32 => 32 | .bf16 => 16 | .e4m3 => 8 | .e5m2 => 8 | .e2m3 => 6 | .e3m2 => 6 | .e2m1 => 4
  | .int8 => 8 | .int4 => 4 | .int32 => 32 | .int16 => 16 | .e8m0 => 8

/-- Exponent bits, mantissa bits and bias of a floating format (R124). -/
def Fmt.emb : Fmt → Nat × Nat × Nat
  | .fp32 => (8, 23, 127) | .bf16 => (8, 7, 127) | .e4m3 => (4, 3, 7) | .e5m2 => (5, 2, 15)
  | .e2m3 => (2, 3, 1) | .e3m2 => (3, 2, 3) | .e2m1 => (2, 1, 1) | _ => (0, 0, 0)

/-- R124: infinities and NaN of a floating format. -/
def Fmt.top : Fmt → FTop
  | .fp32 => .ieee | .bf16 => .ieee | .e5m2 => .ieee | .e4m3 => .nanOnly | _ => .finite

/-- Whether a format holds integers. -/
def Fmt.isInt : Fmt → Bool
  | .int8 => true | .int4 => true | .int32 => true | .int16 => true | _ => false

/-- Whether a format is one of the FP8, FP6, FP4 element formats that carry block scales (R128). -/
def Fmt.isMx : Fmt → Bool
  | .e4m3 => true | .e5m2 => true | .e2m3 => true | .e3m2 => true | .e2m1 => true | _ => false

/-- An integer as an exact value. -/
def FV.ofInt (x : Int) : FV := .fin (decide (x < 0)) x.natAbs 0

/-- R124: the value of an encoded element. -/
def Fmt.decode (f : Fmt) (x : Nat) : FV :=
  if f.isInt then FV.ofInt (sext f.width x)
  else if f = .e8m0 then (if x % 256 = 255 then .nan else .fin false 1 ((x % 256 : Nat) - (127 : Int)))
  else
    let (eb, mb, bias) := f.emb
    let neg := (x >>> (eb + mb)) % 2 = 1
    let ef := (x >>> mb) % 2 ^ eb
    let mf := x % 2 ^ mb
    if f.top = .ieee ∧ ef = 2 ^ eb - 1 then (if mf = 0 then .inf neg else .nan)
    else if f.top = .nanOnly ∧ ef = 2 ^ eb - 1 ∧ mf = 2 ^ mb - 1 then .nan
    else if ef = 0 then .fin neg mf ((1 : Int) - bias - mb)
    else .fin neg (2 ^ mb + mf) ((ef : Int) - bias - mb)

/-- m / 2^sh rounded to nearest, ties to even (R127). -/
def rne (m sh : Nat) : Nat :=
  if sh = 0 then m
  else
    let q := m >>> sh
    let r := m % 2 ^ sh
    let half := 2 ^ (sh - 1)
    if r < half then q else if r > half then q + 1 else q + q % 2

/-- m × 2^e as a multiple of 2^q, rounded to nearest, ties to even. -/
def roundQ (m : Nat) (e q : Int) : Nat :=
  if q ≤ e then m <<< (e - q).toNat else rne m (q - e).toNat

/-- The code of NaN in an output format (R125). -/
def Fmt.nanCode : Fmt → Nat
  | .fp32 => 0x7FC00000 | .bf16 => 0x7FC0 | .e4m3 => 0x7F | .e5m2 => 0x7E | _ => 0

/-- The code of the largest finite magnitude. -/
def Fmt.maxCode (f : Fmt) : Nat :=
  let (eb, mb, _) := f.emb
  match f.top with
  | .ieee => ((2 ^ eb - 1) <<< mb) - 1
  | .nanOnly => 2 ^ (eb + mb) - 2
  | .finite => 2 ^ (eb + mb) - 1

/-- R127, R137: a value rounded once into a floating format. With `sat`, or in a format without infinities, a value
beyond the largest finite one becomes that one; otherwise it becomes an infinity. -/
def Fmt.encode (f : Fmt) (sat : Bool) (v : FV) : Nat :=
  let (eb, mb, bias) := f.emb
  let sgn (neg : Bool) : Nat := if neg then 2 ^ (eb + mb) else 0
  let ovr (neg : Bool) : Nat := sgn neg + (if f.top = .ieee ∧ sat = false then (2 ^ eb - 1) <<< mb else f.maxCode)
  match v with
  | .nan => f.nanCode
  | .inf neg => ovr neg
  | .fin neg m e =>
    if m = 0 then sgn neg
    else
      let emin : Int := (1 : Int) - bias
      let p : Int := e + (Nat.log2 m : Nat)
      let b := if p < emin then emin else p
      let r := roundQ m e (b - mb)
      let code := ((b - emin).toNat <<< mb) + r
      if f.maxCode < code then ovr neg else sgn neg + code

/-- Whether a value lies beyond the largest finite one of a floating format after rounding. -/
def Fmt.exceeds (f : Fmt) (v : FV) : Bool :=
  let (_, mb, bias) := f.emb
  match v with
  | .nan => false
  | .inf _ => true
  | .fin _ m e =>
    let emin : Int := (1 : Int) - bias
    let p : Int := e + (Nat.log2 m : Nat)
    let b := if p < emin then emin else p
    m ≠ 0 && decide (f.maxCode < ((b - emin).toNat <<< mb) + roundQ m e (b - mb))

/-- Sign of a value. -/
def FV.neg : FV → FV
  | .nan => .nan | .inf n => .inf (!n) | .fin n m e => .fin (!n) m e

/-- Exact sum. -/
def FV.add : FV → FV → FV
  | .nan, _ => .nan
  | _, .nan => .nan
  | .inf a, .inf b => if a = b then .inf a else .nan
  | .inf a, .fin _ _ _ => .inf a
  | .fin _ _ _, .inf b => .inf b
  | .fin na ma ea, .fin nb mb eb =>
    let e := min ea eb
    let x : Int := ((ma <<< (ea - e).toNat : Nat) : Int) * (if na then -1 else 1)
    let y : Int := ((mb <<< (eb - e).toNat : Nat) : Int) * (if nb then -1 else 1)
    let z := x + y
    if z = 0 then .fin (na && nb) 0 0 else .fin (decide (z < 0)) z.natAbs e

/-- Exact product. -/
def FV.mul : FV → FV → FV
  | .nan, _ => .nan
  | _, .nan => .nan
  | .inf a, .inf b => .inf (a != b)
  | .inf a, .fin b m _ => if m = 0 then .nan else .inf (a != b)
  | .fin a m _, .inf b => if m = 0 then .nan else .inf (a != b)
  | .fin na ma ea, .fin nb mb eb => .fin (na != nb) (ma * mb) (ea + eb)

/-- a < b on values that are no NaN; false with a NaN. Zeros of either sign are equal. -/
def FV.lt : FV → FV → Bool
  | .nan, _ => false
  | _, .nan => false
  | .inf a, .inf b => a && !b
  | .inf a, .fin _ _ _ => a
  | .fin _ _ _, .inf b => !b
  | .fin na ma ea, .fin nb mb eb =>
    let e := min ea eb
    let x : Int := ((ma <<< (ea - e).toNat : Nat) : Int) * (if na then -1 else 1)
    let y : Int := ((mb <<< (eb - e).toNat : Nat) : Int) * (if nb then -1 else 1)
    decide (x < y)

/-- Whether a value is NaN. -/
def FV.isNan : FV → Bool
  | .nan => true | _ => false

/-- a = b on values that are no NaN; false with a NaN. -/
def FV.eq (a b : FV) : Bool := !a.isNan && !b.isNan && !a.lt b && !b.lt a

/-- Whether the sign is negative. -/
def FV.isNeg : FV → Bool
  | .nan => false | .inf n => n | .fin n _ _ => n

/-- R142: the larger of two, NaN if either is NaN, −0 below +0. -/
def FV.max (a b : FV) : FV :=
  if a.isNan || b.isNan then .nan
  else if a.lt b then b else if b.lt a then a else if a.isNeg then b else a

/-- R142: the smaller of two, by the same rules. -/
def FV.min (a b : FV) : FV :=
  if a.isNan || b.isNan then .nan
  else if a.lt b then a else if b.lt a then b else if a.isNeg then a else b

/-- Multiply by 2^k. -/
def FV.scale (k : Int) : FV → FV
  | .nan => .nan | .inf n => .inf n | .fin n m e => .fin n m (e + k)

/-- A quotient with enough bits, and a last bit that says whether more follow, so that one rounding of it is the
rounding of the exact quotient. -/
def ratio (neg : Bool) (n d : Nat) (e : Int) : FV :=
  let k := 400 + Nat.log2 d
  let q := (n <<< k) / d
  let r := (n <<< k) % d
  .fin neg (2 * q + (if r = 0 then 0 else 1)) (e - k - 1)

/-- R143: 1 / a. -/
def FV.rcp : FV → FV
  | .nan => .nan
  | .inf n => .fin n 0 0
  | .fin n m e => if m = 0 then .inf n else ratio n 1 m (-e)

/-- The integer square root, by bits, highest first. -/
def isqrtGo (x : Nat) : Nat → Nat → Nat
  | 0, r => r
  | b + 1, r => let c := r + 2 ^ b; isqrtGo x b (if c * c ≤ x then c else r)

/-- The integer square root. -/
def isqrt (x : Nat) : Nat := isqrtGo x (Nat.log2 x / 2 + 1) 0

/-- R143: 1 / √a. -/
def FV.rsq : FV → FV
  | .nan => .nan
  | .inf n => if n then .nan else .fin false 0 0
  | .fin n m e =>
    if m = 0 then .inf n
    else if n then .nan
    else
      let odd : Bool := e % 2 ≠ 0
      let m' := if odd then 2 * m else m
      let e' := if odd then e - 1 else e
      let k := 200 + Nat.log2 m'
      let s := isqrt (2 ^ (2 * k) / m')
      let st : Nat := if s * s * m' = 2 ^ (2 * k) then 0 else 1
      .fin false (2 * s + st) (-(e' / 2) - k - 1)

/-- Places after the point in the series below: far more than the rounding of any FP32 input needs. -/
def expP : Nat := 320

/-- ln 2 × 2^expP, from Σ 1 / (i × 2^i). -/
def ln2Fix : Nat := (List.range 400).foldl (fun a i => a + 2 ^ expP * 2 ^ 64 / ((i + 1) * 2 ^ (i + 1))) 0 / 2 ^ 64

/-- e^r × 2^expP for 0 ≤ r < 1 given as r × 2^expP, by the power series. -/
def expFix (r : Nat) : Nat :=
  ((List.range 110).foldl (fun (p : Nat × Nat) i => (p.1 + p.2, p.2 * r / 2 ^ expP / (i + 1))) (0, 2 ^ expP)).1

/-- R143: e^a, as a number close enough that one rounding gives the correctly rounded result. -/
def FV.exp : FV → FV
  | .nan => .nan
  | .inf n => if n then .fin false 0 0 else .inf false
  | .fin n m e =>
    if m = 0 then .fin false 1 0
    else if (11 : Int) ≤ e + (Nat.log2 m : Nat) then (if n then .fin false 0 0 else .inf false)
    else
      let x : Int := (roundQ m e (-(expP : Int)) : Nat) * (if n then -1 else 1)
      let k := x / (ln2Fix : Int)
      let r := (x - k * (ln2Fix : Int)).toNat
      .fin false (2 * expFix r + 1) (k - expP - 1)

/-- R143: 2^a. -/
def FV.exp2 : FV → FV
  | .nan => .nan
  | .inf n => if n then .fin false 0 0 else .inf false
  | .fin n m e =>
    if m = 0 then .fin false 1 0
    else if (11 : Int) ≤ e + (Nat.log2 m : Nat) then (if n then .fin false 0 0 else .inf false)
    else
      let x : Int := (roundQ m e (-(expP : Int)) : Nat) * (if n then -1 else 1)
      let k := x / ((2 ^ expP : Nat) : Int)
      let f := (x - k * ((2 ^ expP : Nat) : Int)).toNat
      if f = 0 then .fin false 1 k
      else .fin false (2 * expFix (f * ln2Fix / 2 ^ expP) + 1) (k - expP - 1)

/-- R129: element `i` of packed elements of `w` bits; `none` if a byte it touches is poisoned or missing. -/
def elemAt (w : Nat) (l : Line) (i : Nat) : Option Nat :=
  let lo := i * w / 8
  let hi := (i * w + w - 1) / 8
  let bs := (l.drop lo).take (hi - lo + 1)
  if bs.length = hi - lo + 1 ∧ bs.all Option.isSome then
    some (leNat (bs.map (fun b => b.getD 0)) >>> (i * w % 8) % 2 ^ w)
  else none

/-- Packed elements as bytes (R129): an element that is poisoned poisons every byte it touches. -/
def packElems (w : Nat) (xs : List (Option Nat)) : Line :=
  (List.range ((xs.length * w + 7) / 8)).map fun b =>
    let first := b * 8 / w
    let last := (b * 8 + 7) / w
    let es := ((xs.drop first).take (last - first + 1))
    if es.all Option.isSome then
      let v := (es.zipIdx).foldl (fun a (p : Option Nat × Nat) => a + (p.1.getD 0) * 2 ^ (w * p.2)) 0
      some (BitVec.ofNat 8 (v >>> (b * 8 - first * w)))
    else none

/-- The scale exponent of an E8M0 byte; `none` for 0xFF, which makes every element of the block NaN (R128). -/
def scaleExp (b : Nat) : Option Int := if b % 256 = 255 then none else some ((b % 256 : Nat) - (127 : Int))

/-- floor(log2 |v|) of a finite nonzero value. -/
def FV.log2 : FV → Option Int
  | .fin _ m e => if m = 0 then none else some (e + (Nat.log2 m : Nat))
  | _ => none

end Sys2Proof.Machine
end

