-- ==== Sys2Proof/Machine/RegTable.lean ====
section
/-!
DEFINITION. Every register the spec names: its block, its offset in the block window (R16, R17 and the
register tables of each chapter), how many of it there are, its reset value and, by access type (R21), which of its
bits a host write reaches; and every named field of every register, as bit positions.
A reset entry "F" or a dash in the spec is 0 here (assumption 1).
-/
namespace Sys2Proof.Machine

/-- One constructor per register name; a numbered series (MBXPRES0 to MBXPRES15) is one constructor with an index. -/
inductive Reg where
  | STR_STATE
  | STR_SCNT
  | STR_STEP
  | STR_OUTSTEP
  | STR_IMAGE
  | STR_STALLCNT
  | STR_STALLNUM
  | STR_GATECNT
  | STR_ERRCNT
  | STR_GATE
  | STR_STALLSRC
  | STR_STALLMAX
  | STR_TRAPADDR
  | STR_TRAPSCNT
  | STR_TRAPINFO
  | STR_DEBUG
  | STR_BRKSCNT
  | STR_HOSTCOND
  | STR_ERRADDR
  | STR_ERRSTAT
  | STR_MBXPRES
  | STR_HSTAT
  | STR_STALLREQ
  | COR_FAILMAP
  | COR_GRESCNT
  | COR_STAT
  | COR_RESCFG
  | COR_RESCNT
  | COR_LOSTPREC
  | COR_ACCOVF
  | COR_SCRCORR
  | COR_PPOIS
  | COR_RESLOG0
  | COR_RESLOG1
  | COR_CTRCLR
  | COR_ERRADDR
  | COR_ERRSTAT
  | COR_ERRCNT
  | ARR_RAMP0
  | ARR_RAMP1
  | ARR_FRZHOLD
  | ARR_STAT
  | ARR_ROWMAP
  | ARR_ACTCNT
  | ARR_MVCNT
  | ARR_DESKEW
  | ARR_ERRSCNT
  | ARR_ERRSTAT
  | ARR_ERRCNT
  | VLT_REFCFG
  | VLT_RWQCFG
  | VLT_GCAP
  | VLT_CHMAP
  | VLT_BAND
  | VLT_OWED
  | VLT_CORRCNT
  | VLT_UNCCNT
  | VLT_FRZCNT
  | VLT_CTRCLR
  | VLT_LANE
  | VLT_WEAK
  | VLT_ERRADDR
  | VLT_ERRSTAT
  | VLT_ERRCNT
  | KVP_RSVMAP
  | KVP_GTRUNC
  | KVP_POOL
  | KVP_DTBASE
  | KVP_SEGBASE
  | KVP_SAEJOB
  | KVP_FREE
  | KVP_DEFER
  | KVP_RESERVE
  | KVP_LIVE
  | KVP_STAT
  | KVP_APPCNT
  | KVP_COWCNT
  | KVP_TRUNCCNT
  | KVP_ERRADDR
  | KVP_ERRSTAT
  | KVP_ERRCNT
  | WVL_HALTMAP
  | WVL_RING
  | WVL_IDX
  | WVL_CHCTL
  | WVL_PUSTAT
  | WVL_DESCCNT
  | WVL_DROPCNT
  | WVL_CANCCNT
  | WVL_HOSTCNT
  | WVL_CTRCLR
  | WVL_ERRADDR
  | WVL_ERRSTAT
  | WVL_ERRCNT
  | SSK_REFCFG
  | SSK_RWQCFG
  | SSK_GCAP
  | SSK_STAT
  | SSK_BAND
  | SSK_CHMAP
  | SSK_OWED
  | SSK_CORRCNT
  | SSK_UNCCNT
  | SSK_FRZCNT
  | SSK_HOSTCNT
  | SSK_FILLCNT
  | SSK_REDCNT
  | SSK_RESCNT
  | SSK_CTRCLR
  | SSK_PIN
  | SSK_ERRADDR
  | SSK_ERRSTAT
  | SSK_ERRCNT
  | SCB_RESCFG
  | SCB_GSTAT
  | SCB_CTL
  | SCB_ACTIVE
  | SCB_FAIL
  | SCB_RESROW
  | SCB_LEASECNT
  | SCB_REFUSECNT
  | SCB_LEASEDCNT
  | SCB_SKIPCNT
  | SCB_CORRCNT
  | SCB_UNCCNT
  | SCB_RESCNT
  | SCB_CTRCLR
  | SCB_RESLOG0
  | SCB_RESLOG1
  | SCB_ERRADDR
  | SCB_ERRSTAT
  | SCB_ERRCNT
  | NOC_DEADMAP
  | NOC_MAPDIG
  | NOC_COLLOG0
  | NOC_COLLOG1
  | NOC_COLCNT
  | NOC_MISSCNT
  | NOC_DEADCNT
  | NOC_HOSTCNT
  | NOC_CTRCLR
  | NOC_ERRADDR
  | NOC_ERRSTAT
  | NOC_ERRCNT
  | ITL_CLASS
  | ITL_LATECNT
  | ITL_STAT
  | ITL_CTL
  | ITL_FLANE0
  | ITL_FLANE1
  | ITL_FSPARE
  | ITL_CREDIT
  | ITL_CRCCNT
  | ITL_REPLAYCNT
  | ITL_STALLCNT
  | ITL_RETRAINCNT
  | ITL_CTRCLR
  | ETH_HOSTTMO
  | ETH_STAT
  | ETH_CTL
  | ETH_PFCCFG
  | ETH_MAC
  | ETH_IP4
  | ETH_IP6L
  | ETH_IP6H
  | ETH_RXFRM
  | ETH_TXFRM
  | ETH_RXDROP
  | ETH_FECCNT
  | ETH_PAUSECNT
  | ETH_CNPCNT
  | ETH_CTRCLR
  | ETH_ERRADDR
  | ETH_ERRSTAT
  | ETH_ERRCNT
  | ECP_KEYSTAT
  | ECP_SESSNEXT
  | ECP_QPSTAT
  | ECP_RGIDL
  | ECP_RGIDH
  | ECP_SESSION
  | ECP_CMDCNT
  | ECP_AUTHFAIL
  | ECP_EVLOST
  | CIC_STAT
  | CIC_CFG
  | CIC_PEERUID
  | CIC_PEERSTEP
  | CIC_LASTIN
  | CIC_HASHSTEP
  | CIC_APPLIED
  | CIC_JBUF
  | CIC_DIVLOG0
  | CIC_DIVLOG1
  | CIC_DIVLOG2
  | CIC_DIVLOG3
  | CIC_HBCNT
  | CIC_FRMCNT
  | CIC_CRCCNT
  | CIC_CMPCNT
  | CIC_PACECNT
  | CIC_CTRCLR
  | CIC_ERRADDR
  | CIC_ERRSTAT
  | CIC_ERRCNT
  | PWR_CAP
  | PWR_CAPCFG
  | PWR_GATE
  | PWR_MEAS
  | PWR_COOL
  | PWR_SHUT
  | PWR_RAIL
  | PWR_VMINCFG
  | PWR_CLSTAT
  | PWR_CLCTL
  | PWR_VSET
  | PWR_IMEAS
  | PWR_VMIN
  | PWR_VMINT
  | THM_LIMITS
  | THM_SNSCLR
  | THM_EVCNT
  | THM_MODEL0
  | THM_MODEL1
  | THM_WORK
  | THM_SNS
  | THM_CORR
  | MLT_STAT
  | MLT_RETIRED
  | MLT_MAP
  | MLT_COUNT
  | BST_BRINGUP
  | BST_PHTIME
  | BST_LBCFG
  | BST_LBSTAT
  | BST_LBFAIL
  | BST_KARFAIL
  | BST_KARLOG
  | LIC_STAT
  | LIC_UID
  | LIC_SVCTIME
  | LIC_ERRSTAT
  | LIC_SLOTA
  | LIC_SLOTB
  | FUS_STAT
  | FUS_SEL
  | FUS_RECLO
  | FUS_RECHI
  | SYS_ORDER
  | SYS_CHMAPDIG
  | SYS_UTIME
  | SYS_EVLOST
  | SYS_ERRADDR
  | SYS_ERRSTAT
  | SYS_ERRCNT
  | BBR_CFG
  | BBR_OLDEST
  | BBR_NEWEST
  | BBR_PENDING
  | BBR_QSTAT
  | BBR_DEVSTAT
  deriving DecidableEq, Repr

/-- Where a register lies and how a host write reaches it. `rw`, `rwl`, `w1c` and `wo` are the masks of the bits of each
access type of R21; `sro` is the mask kept across warm reset. A bit in none of them ignores writes. -/
structure RegInfo where
  blk : Nat
  glob : Bool
  off : Nat
  cnt : Nat := 1
  stride : Nat := 8
  reset : Nat := 0
  rw : Nat := 0
  rwl : Nat := 0
  w1c : Nat := 0
  wo : Nat := 0
  sro : Nat := 0
  deriving DecidableEq, Repr

/-- The register tables of the spec, one row per register. -/
def Reg.info : Reg → RegInfo
  | .STR_STATE => { blk := 4, glob := true, off := 0x0 }
  | .STR_SCNT => { blk := 4, glob := true, off := 0x8 }
  | .STR_STEP => { blk := 4, glob := true, off := 0x10 }
  | .STR_OUTSTEP => { blk := 4, glob := true, off := 0x18, reset := 0xFFFFFFFFFFFFFFFF }
  | .STR_IMAGE => { blk := 4, glob := true, off := 0x20 }
  | .STR_STALLCNT => { blk := 4, glob := true, off := 0x30 }
  | .STR_STALLNUM => { blk := 4, glob := true, off := 0x38 }
  | .STR_GATECNT => { blk := 4, glob := true, off := 0x40 }
  | .STR_ERRCNT => { blk := 4, glob := true, off := 0x98 }
  | .STR_GATE => { blk := 4, glob := true, off := 0x28, rw := 0xF00 }
  | .STR_STALLSRC => { blk := 4, glob := true, off := 0x48, w1c := 0x7F }
  | .STR_STALLMAX => { blk := 4, glob := true, off := 0x50, reset := 0x2DC6C00, rwl := 0xFFFFFFFF }
  | .STR_TRAPADDR => { blk := 4, glob := true, off := 0x58, sro := 0xFFFFFFFFFFFF }
  | .STR_TRAPSCNT => { blk := 4, glob := true, off := 0x60, sro := 0xFFFFFFFFFFFFFFFF }
  | .STR_TRAPINFO => { blk := 4, glob := true, off := 0x68, sro := 0x1FFCF }
  | .STR_DEBUG => { blk := 4, glob := true, off := 0x70, rw := 0x3, wo := 0xFFFF0000 }
  | .STR_BRKSCNT => { blk := 4, glob := true, off := 0x78, rw := 0xFFFFFFFFFFFF }
  | .STR_HOSTCOND => { blk := 4, glob := true, off := 0x80, rw := 0xFFFF }
  | .STR_ERRADDR => { blk := 4, glob := true, off := 0x88 }
  | .STR_ERRSTAT => { blk := 4, glob := true, off := 0x90, w1c := 0x1 }
  | .STR_MBXPRES => { blk := 4, glob := true, off := 0x100, cnt := 16 }
  | .STR_HSTAT => { blk := 4, glob := false, off := 0x0, reset := 0x60000 }
  | .STR_STALLREQ => { blk := 4, glob := false, off := 0x8 }
  | .COR_FAILMAP => { blk := 5, glob := true, off := 0x0, cnt := 16, sro := 0xFFFFFFFFFFFFFFFF }
  | .COR_GRESCNT => { blk := 5, glob := true, off := 0x80 }
  | .COR_STAT => { blk := 5, glob := false, off := 0x0, sro := 0xF1 }
  | .COR_RESCFG => { blk := 5, glob := false, off := 0x8, reset := 0x10040, rwl := 0x1FFFF }
  | .COR_RESCNT => { blk := 5, glob := false, off := 0x10 }
  | .COR_LOSTPREC => { blk := 5, glob := false, off := 0x28 }
  | .COR_ACCOVF => { blk := 5, glob := false, off := 0x30 }
  | .COR_SCRCORR => { blk := 5, glob := false, off := 0x38 }
  | .COR_PPOIS => { blk := 5, glob := false, off := 0x40 }
  | .COR_RESLOG0 => { blk := 5, glob := false, off := 0x18 }
  | .COR_RESLOG1 => { blk := 5, glob := false, off := 0x20, w1c := 0x1000000 }
  | .COR_CTRCLR => { blk := 5, glob := false, off := 0x48, wo := 0x1F }
  | .COR_ERRADDR => { blk := 5, glob := false, off := 0x50 }
  | .COR_ERRSTAT => { blk := 5, glob := false, off := 0x58, w1c := 0x1 }
  | .COR_ERRCNT => { blk := 5, glob := false, off := 0x60 }
  | .ARR_RAMP0 => { blk := 6, glob := true, off := 0x0, reset := 0x7766554433221100, rwl := 0xFFFFFFFFFFFFFFFF }
  | .ARR_RAMP1 => { blk := 6, glob := true, off := 0x8, reset := 0xFFEEDDCCBBAA9988, rwl := 0xFFFFFFFFFFFFFFFF }
  | .ARR_FRZHOLD => { blk := 6, glob := true, off := 0x10, reset := 0x8, rwl := 0x1F }
  | .ARR_STAT => { blk := 6, glob := false, off := 0x0 }
  | .ARR_ROWMAP => { blk := 6, glob := false, off := 0x8, rwl := 0xFFFF }
  | .ARR_ACTCNT => { blk := 6, glob := false, off := 0x10 }
  | .ARR_MVCNT => { blk := 6, glob := false, off := 0x18 }
  | .ARR_DESKEW => { blk := 6, glob := false, off := 0x40, cnt := 8 }
  | .ARR_ERRSCNT => { blk := 6, glob := false, off := 0x80 }
  | .ARR_ERRSTAT => { blk := 6, glob := false, off := 0x88, w1c := 0x1 }
  | .ARR_ERRCNT => { blk := 6, glob := false, off := 0x90 }
  | .VLT_REFCFG => { blk := 11, glob := true, off := 0x0, reset := 0x205, rwl := 0xFFFF }
  | .VLT_RWQCFG => { blk := 11, glob := true, off := 0x8, reset := 0x410, rwl := 0xFFFF }
  | .VLT_GCAP => { blk := 11, glob := true, off := 0x10 }
  | .VLT_CHMAP => { blk := 11, glob := false, off := 0x0, sro := 0x1F1F1F1F }
  | .VLT_BAND => { blk := 11, glob := false, off := 0x8 }
  | .VLT_OWED => { blk := 11, glob := false, off := 0x10 }
  | .VLT_CORRCNT => { blk := 11, glob := false, off := 0x18 }
  | .VLT_UNCCNT => { blk := 11, glob := false, off := 0x20 }
  | .VLT_FRZCNT => { blk := 11, glob := false, off := 0x28 }
  | .VLT_CTRCLR => { blk := 11, glob := false, off := 0x30, wo := 0x3 }
  | .VLT_LANE => { blk := 11, glob := false, off := 0x40, cnt := 4, sro := 0x3FF03FF }
  | .VLT_WEAK => { blk := 11, glob := false, off := 0x100, cnt := 64, sro := 0xE000000000FFFC07 }
  | .VLT_ERRADDR => { blk := 11, glob := false, off := 0x60 }
  | .VLT_ERRSTAT => { blk := 11, glob := false, off := 0x68, w1c := 0x1 }
  | .VLT_ERRCNT => { blk := 11, glob := false, off := 0x70 }
  | .KVP_RSVMAP => { blk := 14, glob := true, off := 0x0, cnt := 16 }
  | .KVP_GTRUNC => { blk := 14, glob := true, off := 0x80 }
  | .KVP_POOL => { blk := 14, glob := false, off := 0x0, rwl := 0x1FFF01FFF000 }
  | .KVP_DTBASE => { blk := 14, glob := false, off := 0x8, rwl := 0x1FFFFF }
  | .KVP_SEGBASE => { blk := 14, glob := false, off := 0x10, rwl := 0x1FF001FFFFF }
  | .KVP_SAEJOB => { blk := 14, glob := false, off := 0x18, rwl := 0x7FF001FFFFF }
  | .KVP_FREE => { blk := 14, glob := false, off := 0x20, reset := 0xFFFF, rwl := 0x1FFFFFFF }
  | .KVP_DEFER => { blk := 14, glob := false, off := 0x28, reset := 0xFFFFFFFF, rwl := 0x1FFFFFFFFFFF }
  | .KVP_RESERVE => { blk := 14, glob := false, off := 0x30, reset := 0xFFFF, rwl := 0x1FFFF }
  | .KVP_LIVE => { blk := 14, glob := false, off := 0x38, rwl := 0x1FFF }
  | .KVP_STAT => { blk := 14, glob := false, off := 0x40, w1c := 0x4 }
  | .KVP_APPCNT => { blk := 14, glob := false, off := 0x48 }
  | .KVP_COWCNT => { blk := 14, glob := false, off := 0x50 }
  | .KVP_TRUNCCNT => { blk := 14, glob := false, off := 0x58 }
  | .KVP_ERRADDR => { blk := 14, glob := false, off := 0x60 }
  | .KVP_ERRSTAT => { blk := 14, glob := false, off := 0x68, w1c := 0x1 }
  | .KVP_ERRCNT => { blk := 14, glob := false, off := 0x70 }
  | .WVL_HALTMAP => { blk := 15, glob := true, off := 0x0, cnt := 2 }
  | .WVL_RING => { blk := 15, glob := false, off := 0x0, cnt := 8, reset := 0x40000000, rwl := 0x1FFFFFF71FFFFF }
  | .WVL_IDX => { blk := 15, glob := false, off := 0x40, cnt := 8 }
  | .WVL_CHCTL => { blk := 15, glob := false, off := 0x80, cnt := 8, reset := 0x8, wo := 0x7 }
  | .WVL_PUSTAT => { blk := 15, glob := false, off := 0xC0 }
  | .WVL_DESCCNT => { blk := 15, glob := false, off := 0xC8 }
  | .WVL_DROPCNT => { blk := 15, glob := false, off := 0xD0 }
  | .WVL_CANCCNT => { blk := 15, glob := false, off := 0xD8 }
  | .WVL_HOSTCNT => { blk := 15, glob := false, off := 0xE0 }
  | .WVL_CTRCLR => { blk := 15, glob := false, off := 0xE8, wo := 0xF }
  | .WVL_ERRADDR => { blk := 15, glob := false, off := 0xF0 }
  | .WVL_ERRSTAT => { blk := 15, glob := false, off := 0xF8, w1c := 0x1 }
  | .WVL_ERRCNT => { blk := 15, glob := false, off := 0x100 }
  | .SSK_REFCFG => { blk := 12, glob := true, off := 0x0, reset := 0x205, rwl := 0xFFFF }
  | .SSK_RWQCFG => { blk := 12, glob := true, off := 0x8, reset := 0x410, rwl := 0xFFFF }
  | .SSK_GCAP => { blk := 12, glob := true, off := 0x10 }
  | .SSK_STAT => { blk := 12, glob := false, off := 0x0 }
  | .SSK_BAND => { blk := 12, glob := false, off := 0x8 }
  | .SSK_CHMAP => { blk := 12, glob := false, off := 0x20, cnt := 4, sro := 0x1F1F1F1F1F1F1F1F }
  | .SSK_OWED => { blk := 12, glob := false, off := 0x40, cnt := 4 }
  | .SSK_CORRCNT => { blk := 12, glob := false, off := 0x60 }
  | .SSK_UNCCNT => { blk := 12, glob := false, off := 0x68 }
  | .SSK_FRZCNT => { blk := 12, glob := false, off := 0x70 }
  | .SSK_HOSTCNT => { blk := 12, glob := false, off := 0x78 }
  | .SSK_FILLCNT => { blk := 12, glob := false, off := 0x80 }
  | .SSK_REDCNT => { blk := 12, glob := false, off := 0x88 }
  | .SSK_RESCNT => { blk := 12, glob := false, off := 0x90 }
  | .SSK_CTRCLR => { blk := 12, glob := false, off := 0x98, wo := 0x7F }
  | .SSK_PIN => { blk := 12, glob := false, off := 0x100, cnt := 32, sro := 0xFFFF }
  | .SSK_ERRADDR => { blk := 12, glob := false, off := 0xA0 }
  | .SSK_ERRSTAT => { blk := 12, glob := false, off := 0xA8, w1c := 0x1 }
  | .SSK_ERRCNT => { blk := 12, glob := false, off := 0xB0 }
  | .SCB_RESCFG => { blk := 13, glob := true, off := 0x0, reset := 0x10040, rwl := 0x1FFFF }
  | .SCB_GSTAT => { blk := 13, glob := true, off := 0x8, reset := 0xF0 }
  | .SCB_CTL => { blk := 13, glob := false, off := 0x0, reset := 0x1, rw := 0x1 }
  | .SCB_ACTIVE => { blk := 13, glob := false, off := 0x8 }
  | .SCB_FAIL => { blk := 13, glob := false, off := 0x10, sro := 0xFFFFFFFFFFFFFFFF }
  | .SCB_RESROW => { blk := 13, glob := false, off := 0x18, reset := 0x7FFF, rwl := 0x7FFF00007FFF }
  | .SCB_LEASECNT => { blk := 13, glob := false, off := 0x20 }
  | .SCB_REFUSECNT => { blk := 13, glob := false, off := 0x28 }
  | .SCB_LEASEDCNT => { blk := 13, glob := false, off := 0x30 }
  | .SCB_SKIPCNT => { blk := 13, glob := false, off := 0x38 }
  | .SCB_CORRCNT => { blk := 13, glob := false, off := 0x40 }
  | .SCB_UNCCNT => { blk := 13, glob := false, off := 0x48 }
  | .SCB_RESCNT => { blk := 13, glob := false, off := 0x50 }
  | .SCB_CTRCLR => { blk := 13, glob := false, off := 0x58, wo := 0x7F }
  | .SCB_RESLOG0 => { blk := 13, glob := false, off := 0x60 }
  | .SCB_RESLOG1 => { blk := 13, glob := false, off := 0x68, w1c := 0x1000000 }
  | .SCB_ERRADDR => { blk := 13, glob := false, off := 0x70 }
  | .SCB_ERRSTAT => { blk := 13, glob := false, off := 0x78, w1c := 0x1 }
  | .SCB_ERRCNT => { blk := 13, glob := false, off := 0x80 }
  | .NOC_DEADMAP => { blk := 16, glob := true, off := 0x0, cnt := 3, sro := 0xFFFFFFFFFFFFFFFF }
  | .NOC_MAPDIG => { blk := 16, glob := false, off := 0x0 }
  | .NOC_COLLOG0 => { blk := 16, glob := false, off := 0x8 }
  | .NOC_COLLOG1 => { blk := 16, glob := false, off := 0x10, w1c := 0x100000000 }
  | .NOC_COLCNT => { blk := 16, glob := false, off := 0x18 }
  | .NOC_MISSCNT => { blk := 16, glob := false, off := 0x20 }
  | .NOC_DEADCNT => { blk := 16, glob := false, off := 0x28 }
  | .NOC_HOSTCNT => { blk := 16, glob := false, off := 0x30 }
  | .NOC_CTRCLR => { blk := 16, glob := false, off := 0x38, wo := 0xF }
  | .NOC_ERRADDR => { blk := 16, glob := false, off := 0x40 }
  | .NOC_ERRSTAT => { blk := 16, glob := false, off := 0x48, w1c := 0x1 }
  | .NOC_ERRCNT => { blk := 16, glob := false, off := 0x50 }
  | .ITL_CLASS => { blk := 17, glob := true, off := 0x0 }
  | .ITL_LATECNT => { blk := 17, glob := true, off := 0x8 }
  | .ITL_STAT => { blk := 17, glob := false, off := 0x0 }
  | .ITL_CTL => { blk := 17, glob := false, off := 0x8, wo := 0x3 }
  | .ITL_FLANE0 => { blk := 17, glob := false, off := 0x10, sro := 0xFFFFFFFFFFFFFFFF }
  | .ITL_FLANE1 => { blk := 17, glob := false, off := 0x18, sro := 0xFFFFFFFFFFFFFFFF }
  | .ITL_FSPARE => { blk := 17, glob := false, off := 0x20, sro := 0xF0F }
  | .ITL_CREDIT => { blk := 17, glob := false, off := 0x28, cnt := 2 }
  | .ITL_CRCCNT => { blk := 17, glob := false, off := 0x38 }
  | .ITL_REPLAYCNT => { blk := 17, glob := false, off := 0x40 }
  | .ITL_STALLCNT => { blk := 17, glob := false, off := 0x48 }
  | .ITL_RETRAINCNT => { blk := 17, glob := false, off := 0x50 }
  | .ITL_CTRCLR => { blk := 17, glob := false, off := 0x58, wo := 0x1F }
  | .ETH_HOSTTMO => { blk := 7, glob := true, off := 0x0, reset := 0xC350, rw := 0xFFFFFFFF }
  | .ETH_STAT => { blk := 7, glob := false, off := 0x0 }
  | .ETH_CTL => { blk := 7, glob := false, off := 0x8, reset := 0x31, rw := 0x77 }
  | .ETH_PFCCFG => { blk := 7, glob := false, off := 0x10, reset := 0x8001000, rw := 0xFFFFFFFF }
  | .ETH_MAC => { blk := 7, glob := false, off := 0x18 }
  | .ETH_IP4 => { blk := 7, glob := false, off := 0x20, rw := 0xFFFFFFFF }
  | .ETH_IP6L => { blk := 7, glob := false, off := 0x28, rw := 0xFFFFFFFFFFFFFFFF }
  | .ETH_IP6H => { blk := 7, glob := false, off := 0x30, rw := 0xFFFFFFFFFFFFFFFF }
  | .ETH_RXFRM => { blk := 7, glob := false, off := 0x38 }
  | .ETH_TXFRM => { blk := 7, glob := false, off := 0x40 }
  | .ETH_RXDROP => { blk := 7, glob := false, off := 0x48 }
  | .ETH_FECCNT => { blk := 7, glob := false, off := 0x50 }
  | .ETH_PAUSECNT => { blk := 7, glob := false, off := 0x58 }
  | .ETH_CNPCNT => { blk := 7, glob := false, off := 0x60 }
  | .ETH_CTRCLR => { blk := 7, glob := false, off := 0x68, wo := 0x3F }
  | .ETH_ERRADDR => { blk := 7, glob := false, off := 0x70 }
  | .ETH_ERRSTAT => { blk := 7, glob := false, off := 0x78, w1c := 0x1 }
  | .ETH_ERRCNT => { blk := 7, glob := false, off := 0x80 }
  | .ECP_KEYSTAT => { blk := 18, glob := true, off := 0x0, sro := 0xFFFFFFFF00000001 }
  | .ECP_SESSNEXT => { blk := 18, glob := true, off := 0x8, reset := 0x1 }
  | .ECP_QPSTAT => { blk := 18, glob := false, off := 0x0 }
  | .ECP_RGIDL => { blk := 18, glob := false, off := 0x8 }
  | .ECP_RGIDH => { blk := 18, glob := false, off := 0x10 }
  | .ECP_SESSION => { blk := 18, glob := false, off := 0x18, reset := 0xFF00000000 }
  | .ECP_CMDCNT => { blk := 18, glob := false, off := 0x20 }
  | .ECP_AUTHFAIL => { blk := 18, glob := false, off := 0x28 }
  | .ECP_EVLOST => { blk := 18, glob := false, off := 0x30 }
  | .CIC_STAT => { blk := 8, glob := true, off := 0x0 }
  | .CIC_CFG => { blk := 8, glob := true, off := 0x8 }
  | .CIC_PEERUID => { blk := 8, glob := true, off := 0x10 }
  | .CIC_PEERSTEP => { blk := 8, glob := true, off := 0x18 }
  | .CIC_LASTIN => { blk := 8, glob := true, off := 0x20, reset := 0xFFFFFFFFFFFFFFFF }
  | .CIC_HASHSTEP => { blk := 8, glob := true, off := 0x28, reset := 0xFFFFFFFFFFFFFFFF }
  | .CIC_APPLIED => { blk := 8, glob := true, off := 0x30, reset := 0xFFFFFFFFFFFFFFFF }
  | .CIC_JBUF => { blk := 8, glob := true, off := 0x38 }
  | .CIC_DIVLOG0 => { blk := 8, glob := true, off := 0x40 }
  | .CIC_DIVLOG1 => { blk := 8, glob := true, off := 0x48 }
  | .CIC_DIVLOG2 => { blk := 8, glob := true, off := 0x50 }
  | .CIC_DIVLOG3 => { blk := 8, glob := true, off := 0x58, w1c := 0x1 }
  | .CIC_HBCNT => { blk := 8, glob := true, off := 0x60 }
  | .CIC_FRMCNT => { blk := 8, glob := true, off := 0x68 }
  | .CIC_CRCCNT => { blk := 8, glob := true, off := 0x70 }
  | .CIC_CMPCNT => { blk := 8, glob := true, off := 0x78 }
  | .CIC_PACECNT => { blk := 8, glob := true, off := 0x80 }
  | .CIC_CTRCLR => { blk := 8, glob := true, off := 0x88, wo := 0x1F }
  | .CIC_ERRADDR => { blk := 8, glob := true, off := 0x90 }
  | .CIC_ERRSTAT => { blk := 8, glob := true, off := 0x98, w1c := 0x1 }
  | .CIC_ERRCNT => { blk := 8, glob := true, off := 0xA0 }
  | .PWR_CAP => { blk := 2, glob := true, off := 0x0, reset := 0x6D60001, rw := 0xFFFF00000000 }
  | .PWR_CAPCFG => { blk := 2, glob := true, off := 0x8, reset := 0x2B90190, rw := 0xFFFFFFFF }
  | .PWR_GATE => { blk := 2, glob := true, off := 0x10 }
  | .PWR_MEAS => { blk := 2, glob := true, off := 0x18 }
  | .PWR_COOL => { blk := 2, glob := true, off := 0x20, reset := 0xFFFF064000000FA0 }
  | .PWR_SHUT => { blk := 2, glob := true, off := 0x28 }
  | .PWR_RAIL => { blk := 2, glob := true, off := 0x30, cnt := 2 }
  | .PWR_VMINCFG => { blk := 2, glob := true, off := 0x40, reset := 0x7068, rw := 0xFFFF }
  | .PWR_CLSTAT => { blk := 2, glob := false, off := 0x0, sro := 0xF00 }
  | .PWR_CLCTL => { blk := 2, glob := false, off := 0x8, rwl := 0x1 }
  | .PWR_VSET => { blk := 2, glob := false, off := 0x10, rwl := 0xFF }
  | .PWR_IMEAS => { blk := 2, glob := false, off := 0x18 }
  | .PWR_VMIN => { blk := 2, glob := false, off := 0x20, cnt := 4, reset := 0xFF000000000000, w1c := 0x8000000000000000, sro := 0xFFFFFFFFFFFFFF }
  | .PWR_VMINT => { blk := 2, glob := false, off := 0x40, cnt := 4, sro := 0xFFFFFFFFFFFFFFFF }
  | .THM_LIMITS => { blk := 3, glob := true, off := 0x0, reset := 0x6969736E737D }
  | .THM_SNSCLR => { blk := 3, glob := true, off := 0x8, wo := 0x1FF }
  | .THM_EVCNT => { blk := 3, glob := true, off := 0x10 }
  | .THM_MODEL0 => { blk := 3, glob := false, off := 0x0 }
  | .THM_MODEL1 => { blk := 3, glob := false, off := 0x8 }
  | .THM_WORK => { blk := 3, glob := false, off := 0x10 }
  | .THM_SNS => { blk := 3, glob := false, off := 0x18, sro := 0xC00000000 }
  | .THM_CORR => { blk := 3, glob := false, off := 0x20 }
  | .MLT_STAT => { blk := 9, glob := false, off := 0x0, sro := 0x4 }
  | .MLT_RETIRED => { blk := 9, glob := false, off := 0x8, cnt := 2, sro := 0xFFFFFFFFFFFFFFFF }
  | .MLT_MAP => { blk := 9, glob := false, off := 0x40, cnt := 8 }
  | .MLT_COUNT => { blk := 9, glob := false, off := 0x80 }
  | .BST_BRINGUP => { blk := 10, glob := true, off := 0x0 }
  | .BST_PHTIME => { blk := 10, glob := true, off := 0x8, cnt := 3 }
  | .BST_LBCFG => { blk := 10, glob := false, off := 0x0, reset := 0x4, rw := 0xF }
  | .BST_LBSTAT => { blk := 10, glob := false, off := 0x8 }
  | .BST_LBFAIL => { blk := 10, glob := false, off := 0x10, cnt := 2, sro := 0xFFFFFFFFFFFFFFFF }
  | .BST_KARFAIL => { blk := 10, glob := false, off := 0x20, cnt := 2 }
  | .BST_KARLOG => { blk := 10, glob := false, off := 0x30, w1c := 0x1 }
  | .LIC_STAT => { blk := 20, glob := true, off := 0x0 }
  | .LIC_UID => { blk := 20, glob := true, off := 0x8 }
  | .LIC_SVCTIME => { blk := 20, glob := true, off := 0x10 }
  | .LIC_ERRSTAT => { blk := 20, glob := true, off := 0x18, w1c := 0x1 }
  | .LIC_SLOTA => { blk := 20, glob := true, off := 0x100, cnt := 16, stride := 16 }
  | .LIC_SLOTB => { blk := 20, glob := true, off := 0x108, cnt := 16, stride := 16 }
  | .FUS_STAT => { blk := 21, glob := false, off := 0x0 }
  | .FUS_SEL => { blk := 21, glob := false, off := 0x8, rw := 0x1FF }
  | .FUS_RECLO => { blk := 21, glob := false, off := 0x10 }
  | .FUS_RECHI => { blk := 21, glob := false, off := 0x18 }
  | .SYS_ORDER => { blk := 0, glob := true, off := 0x0 }
  | .SYS_CHMAPDIG => { blk := 0, glob := true, off := 0x8 }
  | .SYS_UTIME => { blk := 0, glob := true, off := 0x10 }
  | .SYS_EVLOST => { blk := 0, glob := true, off := 0x18 }
  | .SYS_ERRADDR => { blk := 0, glob := true, off := 0x20 }
  | .SYS_ERRSTAT => { blk := 0, glob := true, off := 0x28, w1c := 0x1 }
  | .SYS_ERRCNT => { blk := 0, glob := true, off := 0x30 }
  | .BBR_CFG => { blk := 19, glob := true, off := 0x0, reset := 0x4, rw := 0xF }
  | .BBR_OLDEST => { blk := 19, glob := true, off := 0x8 }
  | .BBR_NEWEST => { blk := 19, glob := true, off := 0x10 }
  | .BBR_PENDING => { blk := 19, glob := true, off := 0x18, sro := 0xFFFFFFFFFFFFFFFF }
  | .BBR_QSTAT => { blk := 19, glob := true, off := 0x20 }
  | .BBR_DEVSTAT => { blk := 19, glob := true, off := 0x28, reset := 0x300000000 }

/-- The registers of each block, in the order of the block numbers of R17. -/
def Reg.ofBlock : Nat → List Reg
  | 0 => [.SYS_ORDER, .SYS_CHMAPDIG, .SYS_UTIME, .SYS_EVLOST, .SYS_ERRADDR, .SYS_ERRSTAT, .SYS_ERRCNT]
  | 2 => [.PWR_CAP, .PWR_CAPCFG, .PWR_GATE, .PWR_MEAS, .PWR_COOL, .PWR_SHUT, .PWR_RAIL, .PWR_VMINCFG, .PWR_CLSTAT, .PWR_CLCTL, .PWR_VSET, .PWR_IMEAS, .PWR_VMIN, .PWR_VMINT]
  | 3 => [.THM_LIMITS, .THM_SNSCLR, .THM_EVCNT, .THM_MODEL0, .THM_MODEL1, .THM_WORK, .THM_SNS, .THM_CORR]
  | 4 => [.STR_STATE, .STR_SCNT, .STR_STEP, .STR_OUTSTEP, .STR_IMAGE, .STR_STALLCNT, .STR_STALLNUM, .STR_GATECNT, .STR_ERRCNT, .STR_GATE, .STR_STALLSRC, .STR_STALLMAX, .STR_TRAPADDR, .STR_TRAPSCNT, .STR_TRAPINFO, .STR_DEBUG, .STR_BRKSCNT, .STR_HOSTCOND, .STR_ERRADDR, .STR_ERRSTAT, .STR_MBXPRES, .STR_HSTAT, .STR_STALLREQ]
  | 5 => [.COR_FAILMAP, .COR_GRESCNT, .COR_STAT, .COR_RESCFG, .COR_RESCNT, .COR_LOSTPREC, .COR_ACCOVF, .COR_SCRCORR, .COR_PPOIS, .COR_RESLOG0, .COR_RESLOG1, .COR_CTRCLR, .COR_ERRADDR, .COR_ERRSTAT, .COR_ERRCNT]
  | 6 => [.ARR_RAMP0, .ARR_RAMP1, .ARR_FRZHOLD, .ARR_STAT, .ARR_ROWMAP, .ARR_ACTCNT, .ARR_MVCNT, .ARR_DESKEW, .ARR_ERRSCNT, .ARR_ERRSTAT, .ARR_ERRCNT]
  | 7 => [.ETH_HOSTTMO, .ETH_STAT, .ETH_CTL, .ETH_PFCCFG, .ETH_MAC, .ETH_IP4, .ETH_IP6L, .ETH_IP6H, .ETH_RXFRM, .ETH_TXFRM, .ETH_RXDROP, .ETH_FECCNT, .ETH_PAUSECNT, .ETH_CNPCNT, .ETH_CTRCLR, .ETH_ERRADDR, .ETH_ERRSTAT, .ETH_ERRCNT]
  | 8 => [.CIC_STAT, .CIC_CFG, .CIC_PEERUID, .CIC_PEERSTEP, .CIC_LASTIN, .CIC_HASHSTEP, .CIC_APPLIED, .CIC_JBUF, .CIC_DIVLOG0, .CIC_DIVLOG1, .CIC_DIVLOG2, .CIC_DIVLOG3, .CIC_HBCNT, .CIC_FRMCNT, .CIC_CRCCNT, .CIC_CMPCNT, .CIC_PACECNT, .CIC_CTRCLR, .CIC_ERRADDR, .CIC_ERRSTAT, .CIC_ERRCNT]
  | 9 => [.MLT_STAT, .MLT_RETIRED, .MLT_MAP, .MLT_COUNT]
  | 10 => [.BST_BRINGUP, .BST_PHTIME, .BST_LBCFG, .BST_LBSTAT, .BST_LBFAIL, .BST_KARFAIL, .BST_KARLOG]
  | 11 => [.VLT_REFCFG, .VLT_RWQCFG, .VLT_GCAP, .VLT_CHMAP, .VLT_BAND, .VLT_OWED, .VLT_CORRCNT, .VLT_UNCCNT, .VLT_FRZCNT, .VLT_CTRCLR, .VLT_LANE, .VLT_WEAK, .VLT_ERRADDR, .VLT_ERRSTAT, .VLT_ERRCNT]
  | 12 => [.SSK_REFCFG, .SSK_RWQCFG, .SSK_GCAP, .SSK_STAT, .SSK_BAND, .SSK_CHMAP, .SSK_OWED, .SSK_CORRCNT, .SSK_UNCCNT, .SSK_FRZCNT, .SSK_HOSTCNT, .SSK_FILLCNT, .SSK_REDCNT, .SSK_RESCNT, .SSK_CTRCLR, .SSK_PIN, .SSK_ERRADDR, .SSK_ERRSTAT, .SSK_ERRCNT]
  | 13 => [.SCB_RESCFG, .SCB_GSTAT, .SCB_CTL, .SCB_ACTIVE, .SCB_FAIL, .SCB_RESROW, .SCB_LEASECNT, .SCB_REFUSECNT, .SCB_LEASEDCNT, .SCB_SKIPCNT, .SCB_CORRCNT, .SCB_UNCCNT, .SCB_RESCNT, .SCB_CTRCLR, .SCB_RESLOG0, .SCB_RESLOG1, .SCB_ERRADDR, .SCB_ERRSTAT, .SCB_ERRCNT]
  | 14 => [.KVP_RSVMAP, .KVP_GTRUNC, .KVP_POOL, .KVP_DTBASE, .KVP_SEGBASE, .KVP_SAEJOB, .KVP_FREE, .KVP_DEFER, .KVP_RESERVE, .KVP_LIVE, .KVP_STAT, .KVP_APPCNT, .KVP_COWCNT, .KVP_TRUNCCNT, .KVP_ERRADDR, .KVP_ERRSTAT, .KVP_ERRCNT]
  | 15 => [.WVL_HALTMAP, .WVL_RING, .WVL_IDX, .WVL_CHCTL, .WVL_PUSTAT, .WVL_DESCCNT, .WVL_DROPCNT, .WVL_CANCCNT, .WVL_HOSTCNT, .WVL_CTRCLR, .WVL_ERRADDR, .WVL_ERRSTAT, .WVL_ERRCNT]
  | 16 => [.NOC_DEADMAP, .NOC_MAPDIG, .NOC_COLLOG0, .NOC_COLLOG1, .NOC_COLCNT, .NOC_MISSCNT, .NOC_DEADCNT, .NOC_HOSTCNT, .NOC_CTRCLR, .NOC_ERRADDR, .NOC_ERRSTAT, .NOC_ERRCNT]
  | 17 => [.ITL_CLASS, .ITL_LATECNT, .ITL_STAT, .ITL_CTL, .ITL_FLANE0, .ITL_FLANE1, .ITL_FSPARE, .ITL_CREDIT, .ITL_CRCCNT, .ITL_REPLAYCNT, .ITL_STALLCNT, .ITL_RETRAINCNT, .ITL_CTRCLR]
  | 18 => [.ECP_KEYSTAT, .ECP_SESSNEXT, .ECP_QPSTAT, .ECP_RGIDL, .ECP_RGIDH, .ECP_SESSION, .ECP_CMDCNT, .ECP_AUTHFAIL, .ECP_EVLOST]
  | 19 => [.BBR_CFG, .BBR_OLDEST, .BBR_NEWEST, .BBR_PENDING, .BBR_QSTAT, .BBR_DEVSTAT]
  | 20 => [.LIC_STAT, .LIC_UID, .LIC_SVCTIME, .LIC_ERRSTAT, .LIC_SLOTA, .LIC_SLOTB]
  | 21 => [.FUS_STAT, .FUS_SEL, .FUS_RECLO, .FUS_RECHI]
  | _ => []

/-- How many instances the registers of a block have (R17). -/
def Reg.instances : Nat → Nat
  | 2 => 132 | 3 => 136 | 4 => 2 | 5 => 1024 | 6 => 1024 | 7 => 8 | 9 => 2 | 10 => 2 | 11 => 1024
  | 12 => 8 | 13 => 4 | 14 => 1024 | 15 => 128 | 16 => 2 | 17 => 16 | 18 => 256 | 21 => 2 | _ => 0

/-- A named field of a register: bits `hi` to `lo`. -/
structure Fld where
  reg : Reg
  hi : Nat
  lo : Nat
  deriving DecidableEq, Repr

namespace F
abbrev STR_STATE_ENDED : Fld := ⟨.STR_STATE, 5, 5⟩
abbrev STR_STATE_ATSTEP : Fld := ⟨.STR_STATE, 4, 4⟩
abbrev STR_STATE_STATE : Fld := ⟨.STR_STATE, 2, 0⟩
abbrev STR_SCNT_EPOCH : Fld := ⟨.STR_SCNT, 63, 48⟩
abbrev STR_SCNT_SCNT : Fld := ⟨.STR_SCNT, 47, 0⟩
abbrev STR_STEP_STEP : Fld := ⟨.STR_STEP, 63, 0⟩
abbrev STR_OUTSTEP_OUTSTEP : Fld := ⟨.STR_OUTSTEP, 63, 0⟩
abbrev STR_IMAGE_IMAGE_ID : Fld := ⟨.STR_IMAGE, 63, 0⟩
abbrev STR_STALLCNT_CYCLES : Fld := ⟨.STR_STALLCNT, 63, 0⟩
abbrev STR_STALLNUM_FREEZES : Fld := ⟨.STR_STALLNUM, 63, 0⟩
abbrev STR_GATECNT_CYCLES : Fld := ⟨.STR_GATECNT, 63, 0⟩
abbrev STR_ERRCNT_COUNT : Fld := ⟨.STR_ERRCNT, 63, 0⟩
abbrev STR_GATE_GATE_PWR : Fld := ⟨.STR_GATE, 19, 16⟩
abbrev STR_GATE_GATE_HOST : Fld := ⟨.STR_GATE, 11, 8⟩
abbrev STR_GATE_GATE_EFF : Fld := ⟨.STR_GATE, 3, 0⟩
abbrev STR_STALLSRC_SEEN : Fld := ⟨.STR_STALLSRC, 6, 0⟩
abbrev STR_STALLMAX_LIMIT : Fld := ⟨.STR_STALLMAX, 31, 0⟩
abbrev STR_TRAPADDR_ADDR : Fld := ⟨.STR_TRAPADDR, 47, 0⟩
abbrev STR_TRAPSCNT_EPOCH : Fld := ⟨.STR_TRAPSCNT, 63, 48⟩
abbrev STR_TRAPSCNT_SCNT : Fld := ⟨.STR_TRAPSCNT, 47, 0⟩
abbrev STR_TRAPINFO_HALF : Fld := ⟨.STR_TRAPINFO, 16, 16⟩
abbrev STR_TRAPINFO_CORE : Fld := ⟨.STR_TRAPINFO, 15, 6⟩
abbrev STR_TRAPINFO_CAUSE : Fld := ⟨.STR_TRAPINFO, 3, 0⟩
abbrev STR_DEBUG_STEPN : Fld := ⟨.STR_DEBUG, 31, 16⟩
abbrev STR_DEBUG_BRKEN : Fld := ⟨.STR_DEBUG, 1, 1⟩
abbrev STR_DEBUG_DBGEN : Fld := ⟨.STR_DEBUG, 0, 0⟩
abbrev STR_BRKSCNT_SCNT : Fld := ⟨.STR_BRKSCNT, 47, 0⟩
abbrev STR_HOSTCOND_COND : Fld := ⟨.STR_HOSTCOND, 15, 0⟩
abbrev STR_ERRADDR_ADDR : Fld := ⟨.STR_ERRADDR, 47, 0⟩
abbrev STR_ERRSTAT_STATUS : Fld := ⟨.STR_ERRSTAT, 31, 16⟩
abbrev STR_ERRSTAT_CAUSE : Fld := ⟨.STR_ERRSTAT, 15, 8⟩
abbrev STR_ERRSTAT_VALID : Fld := ⟨.STR_ERRSTAT, 0, 0⟩
abbrev STR_MBXPRES_PRES : Fld := ⟨.STR_MBXPRES, 63, 0⟩
abbrev STR_HSTAT_LANEOK : Fld := ⟨.STR_HSTAT, 18, 17⟩
abbrev STR_HSTAT_FROZEN : Fld := ⟨.STR_HSTAT, 16, 16⟩
abbrev STR_HSTAT_BLOCK : Fld := ⟨.STR_HSTAT, 11, 0⟩
abbrev STR_STALLREQ_ACTIVE : Fld := ⟨.STR_STALLREQ, 6, 0⟩
abbrev COR_FAILMAP_FAILED : Fld := ⟨.COR_FAILMAP, 63, 0⟩
abbrev COR_GRESCNT_COUNT : Fld := ⟨.COR_GRESCNT, 63, 0⟩
abbrev COR_STAT_HALF : Fld := ⟨.COR_STAT, 23, 23⟩
abbrev COR_STAT_PCLUS : Fld := ⟨.COR_STAT, 22, 16⟩
abbrev COR_STAT_ATTN : Fld := ⟨.COR_STAT, 8, 8⟩
abbrev COR_STAT_FCAUSE : Fld := ⟨.COR_STAT, 7, 4⟩
abbrev COR_STAT_FAILED : Fld := ⟨.COR_STAT, 0, 0⟩
abbrev COR_RESCFG_FAILEN : Fld := ⟨.COR_RESCFG, 16, 16⟩
abbrev COR_RESCFG_LIMIT : Fld := ⟨.COR_RESCFG, 15, 0⟩
abbrev COR_RESCNT_COUNT : Fld := ⟨.COR_RESCNT, 63, 0⟩
abbrev COR_LOSTPREC_COUNT : Fld := ⟨.COR_LOSTPREC, 63, 0⟩
abbrev COR_ACCOVF_COUNT : Fld := ⟨.COR_ACCOVF, 63, 0⟩
abbrev COR_SCRCORR_COUNT : Fld := ⟨.COR_SCRCORR, 63, 0⟩
abbrev COR_PPOIS_COUNT : Fld := ⟨.COR_PPOIS, 63, 0⟩
abbrev COR_RESLOG0_EPOCH : Fld := ⟨.COR_RESLOG0, 63, 48⟩
abbrev COR_RESLOG0_SCNT : Fld := ⟨.COR_RESLOG0, 47, 0⟩
abbrev COR_RESLOG1_VALID : Fld := ⟨.COR_RESLOG1, 24, 24⟩
abbrev COR_RESLOG1_LANE : Fld := ⟨.COR_RESLOG1, 23, 16⟩
abbrev COR_RESLOG1_ROW : Fld := ⟨.COR_RESLOG1, 15, 8⟩
abbrev COR_RESLOG1_UNIT : Fld := ⟨.COR_RESLOG1, 7, 4⟩
abbrev COR_RESLOG1_CHECK : Fld := ⟨.COR_RESLOG1, 3, 0⟩
abbrev COR_CTRCLR_CLR : Fld := ⟨.COR_CTRCLR, 4, 0⟩
abbrev COR_ERRADDR_ADDR : Fld := ⟨.COR_ERRADDR, 47, 0⟩
abbrev COR_ERRSTAT_STATUS : Fld := ⟨.COR_ERRSTAT, 31, 16⟩
abbrev COR_ERRSTAT_CAUSE : Fld := ⟨.COR_ERRSTAT, 15, 8⟩
abbrev COR_ERRSTAT_VALID : Fld := ⟨.COR_ERRSTAT, 0, 0⟩
abbrev COR_ERRCNT_COUNT : Fld := ⟨.COR_ERRCNT, 63, 0⟩
abbrev ARR_RAMP0_ENTRY : Fld := ⟨.ARR_RAMP0, 63, 0⟩
abbrev ARR_RAMP1_ENTRY : Fld := ⟨.ARR_RAMP1, 63, 0⟩
abbrev ARR_FRZHOLD_HOLD : Fld := ⟨.ARR_FRZHOLD, 4, 0⟩
abbrev ARR_STAT_CAPPED : Fld := ⟨.ARR_STAT, 16, 16⟩
abbrev ARR_STAT_NSPARE : Fld := ⟨.ARR_STAT, 13, 12⟩
abbrev ARR_STAT_LEVEL : Fld := ⟨.ARR_STAT, 8, 4⟩
abbrev ARR_STAT_RAMP : Fld := ⟨.ARR_STAT, 3, 2⟩
abbrev ARR_STAT_SPLIT : Fld := ⟨.ARR_STAT, 1, 1⟩
abbrev ARR_STAT_ACTSET : Fld := ⟨.ARR_STAT, 0, 0⟩
abbrev ARR_ROWMAP_VB : Fld := ⟨.ARR_ROWMAP, 15, 15⟩
abbrev ARR_ROWMAP_FAILB : Fld := ⟨.ARR_ROWMAP, 14, 8⟩
abbrev ARR_ROWMAP_VA : Fld := ⟨.ARR_ROWMAP, 7, 7⟩
abbrev ARR_ROWMAP_FAILA : Fld := ⟨.ARR_ROWMAP, 6, 0⟩
abbrev ARR_ACTCNT_COUNT : Fld := ⟨.ARR_ACTCNT, 63, 0⟩
abbrev ARR_MVCNT_COUNT : Fld := ⟨.ARR_MVCNT, 63, 0⟩
abbrev ARR_DESKEW_DELAY : Fld := ⟨.ARR_DESKEW, 63, 0⟩
abbrev ARR_ERRSCNT_EPOCH : Fld := ⟨.ARR_ERRSCNT, 63, 48⟩
abbrev ARR_ERRSCNT_SCNT : Fld := ⟨.ARR_ERRSCNT, 47, 0⟩
abbrev ARR_ERRSTAT_CAUSE : Fld := ⟨.ARR_ERRSTAT, 15, 8⟩
abbrev ARR_ERRSTAT_UNIT : Fld := ⟨.ARR_ERRSTAT, 1, 1⟩
abbrev ARR_ERRSTAT_VALID : Fld := ⟨.ARR_ERRSTAT, 0, 0⟩
abbrev ARR_ERRCNT_COUNT : Fld := ⟨.ARR_ERRCNT, 63, 0⟩
abbrev VLT_REFCFG_OWEDLO : Fld := ⟨.VLT_REFCFG, 15, 8⟩
abbrev VLT_REFCFG_OWEDHI : Fld := ⟨.VLT_REFCFG, 7, 0⟩
abbrev VLT_RWQCFG_LOW : Fld := ⟨.VLT_RWQCFG, 15, 8⟩
abbrev VLT_RWQCFG_HIGH : Fld := ⟨.VLT_RWQCFG, 7, 0⟩
abbrev VLT_GCAP_CHANNELS : Fld := ⟨.VLT_GCAP, 12, 0⟩
abbrev VLT_CHMAP_PENDING (j : Nat) : Fld := ⟨.VLT_CHMAP, 8 * j + 5, 8 * j + 5⟩
abbrev VLT_CHMAP_MOCAUSE (j : Nat) : Fld := ⟨.VLT_CHMAP, 8 * j + 4, 8 * j + 2⟩
abbrev VLT_CHMAP_STATE (j : Nat) : Fld := ⟨.VLT_CHMAP, 8 * j + 1, 8 * j + 0⟩
abbrev VLT_BAND_BAND (j : Nat) : Fld := ⟨.VLT_BAND, 4 * j + 1, 4 * j + 0⟩
abbrev VLT_OWED_OWED (j : Nat) : Fld := ⟨.VLT_OWED, 8 * j + 7, 8 * j + 0⟩
abbrev VLT_CORRCNT_COUNT (j : Nat) : Fld := ⟨.VLT_CORRCNT, 16 * j + 15, 16 * j + 0⟩
abbrev VLT_UNCCNT_COUNT (j : Nat) : Fld := ⟨.VLT_UNCCNT, 16 * j + 15, 16 * j + 0⟩
abbrev VLT_FRZCNT_RWQ : Fld := ⟨.VLT_FRZCNT, 63, 32⟩
abbrev VLT_FRZCNT_REF : Fld := ⟨.VLT_FRZCNT, 31, 0⟩
abbrev VLT_CTRCLR_CLR : Fld := ⟨.VLT_CTRCLR, 1, 0⟩
abbrev VLT_LANE_VB : Fld := ⟨.VLT_LANE, 25, 25⟩
abbrev VLT_LANE_CONNB : Fld := ⟨.VLT_LANE, 24, 16⟩
abbrev VLT_LANE_VA : Fld := ⟨.VLT_LANE, 9, 9⟩
abbrev VLT_LANE_CONNA : Fld := ⟨.VLT_LANE, 8, 0⟩
abbrev VLT_WEAK_STATE : Fld := ⟨.VLT_WEAK, 63, 61⟩
abbrev VLT_WEAK_BANK : Fld := ⟨.VLT_WEAK, 23, 20⟩
abbrev VLT_WEAK_ROW : Fld := ⟨.VLT_WEAK, 19, 10⟩
abbrev VLT_WEAK_SPARE : Fld := ⟨.VLT_WEAK, 2, 0⟩
abbrev VLT_ERRADDR_ADDR : Fld := ⟨.VLT_ERRADDR, 47, 0⟩
abbrev VLT_ERRSTAT_STATUS : Fld := ⟨.VLT_ERRSTAT, 31, 16⟩
abbrev VLT_ERRSTAT_CAUSE : Fld := ⟨.VLT_ERRSTAT, 15, 8⟩
abbrev VLT_ERRSTAT_VALID : Fld := ⟨.VLT_ERRSTAT, 0, 0⟩
abbrev VLT_ERRCNT_COUNT : Fld := ⟨.VLT_ERRCNT, 63, 0⟩
abbrev KVP_RSVMAP_TAKEN : Fld := ⟨.KVP_RSVMAP, 63, 0⟩
abbrev KVP_GTRUNC_COUNT : Fld := ⟨.KVP_GTRUNC, 63, 0⟩
abbrev KVP_POOL_NPAGE : Fld := ⟨.KVP_POOL, 44, 32⟩
abbrev KVP_POOL_POOLOFF : Fld := ⟨.KVP_POOL, 24, 12⟩
abbrev KVP_DTBASE_OFF : Fld := ⟨.KVP_DTBASE, 20, 0⟩
abbrev KVP_SEGBASE_NSEG : Fld := ⟨.KVP_SEGBASE, 40, 32⟩
abbrev KVP_SEGBASE_OFF : Fld := ⟨.KVP_SEGBASE, 20, 0⟩
abbrev KVP_SAEJOB_NJOB : Fld := ⟨.KVP_SAEJOB, 42, 32⟩
abbrev KVP_SAEJOB_OFF : Fld := ⟨.KVP_SAEJOB, 20, 0⟩
abbrev KVP_FREE_COUNT : Fld := ⟨.KVP_FREE, 28, 16⟩
abbrev KVP_FREE_HEAD : Fld := ⟨.KVP_FREE, 15, 0⟩
abbrev KVP_DEFER_COUNT : Fld := ⟨.KVP_DEFER, 44, 32⟩
abbrev KVP_DEFER_TAIL : Fld := ⟨.KVP_DEFER, 31, 16⟩
abbrev KVP_DEFER_HEAD : Fld := ⟨.KVP_DEFER, 15, 0⟩
abbrev KVP_RESERVE_VALID : Fld := ⟨.KVP_RESERVE, 16, 16⟩
abbrev KVP_RESERVE_PAGE : Fld := ⟨.KVP_RESERVE, 15, 0⟩
abbrev KVP_LIVE_COUNT : Fld := ⟨.KVP_LIVE, 12, 0⟩
abbrev KVP_STAT_REFILLPEND : Fld := ⟨.KVP_STAT, 3, 3⟩
abbrev KVP_STAT_BALERR : Fld := ⟨.KVP_STAT, 2, 2⟩
abbrev KVP_STAT_EXHAUSTED : Fld := ⟨.KVP_STAT, 1, 1⟩
abbrev KVP_STAT_RSVTAKEN : Fld := ⟨.KVP_STAT, 0, 0⟩
abbrev KVP_APPCNT_COUNT : Fld := ⟨.KVP_APPCNT, 63, 0⟩
abbrev KVP_COWCNT_COUNT : Fld := ⟨.KVP_COWCNT, 63, 0⟩
abbrev KVP_TRUNCCNT_COUNT : Fld := ⟨.KVP_TRUNCCNT, 63, 0⟩
abbrev KVP_ERRADDR_ADDR : Fld := ⟨.KVP_ERRADDR, 47, 0⟩
abbrev KVP_ERRSTAT_STATUS : Fld := ⟨.KVP_ERRSTAT, 31, 16⟩
abbrev KVP_ERRSTAT_CAUSE : Fld := ⟨.KVP_ERRSTAT, 15, 8⟩
abbrev KVP_ERRSTAT_VALID : Fld := ⟨.KVP_ERRSTAT, 0, 0⟩
abbrev KVP_ERRCNT_COUNT : Fld := ⟨.KVP_ERRCNT, 63, 0⟩
abbrev WVL_HALTMAP_HALTED : Fld := ⟨.WVL_HALTMAP, 63, 0⟩
abbrev WVL_RING_STATOFF : Fld := ⟨.WVL_RING, 52, 32⟩
abbrev WVL_RING_LOG2LEN : Fld := ⟨.WVL_RING, 31, 28⟩
abbrev WVL_RING_RINGCORE : Fld := ⟨.WVL_RING, 26, 24⟩
abbrev WVL_RING_RINGOFF : Fld := ⟨.WVL_RING, 20, 0⟩
abbrev WVL_IDX_PROD : Fld := ⟨.WVL_IDX, 63, 32⟩
abbrev WVL_IDX_CONS : Fld := ⟨.WVL_IDX, 31, 0⟩
abbrev WVL_CHCTL_HALTIDX : Fld := ⟨.WVL_CHCTL, 63, 32⟩
abbrev WVL_CHCTL_CUROP : Fld := ⟨.WVL_CHCTL, 15, 8⟩
abbrev WVL_CHCTL_BUSY : Fld := ⟨.WVL_CHCTL, 7, 7⟩
abbrev WVL_CHCTL_CLRPEND : Fld := ⟨.WVL_CHCTL, 6, 6⟩
abbrev WVL_CHCTL_ENPEND : Fld := ⟨.WVL_CHCTL, 5, 5⟩
abbrev WVL_CHCTL_HALTED : Fld := ⟨.WVL_CHCTL, 4, 4⟩
abbrev WVL_CHCTL_EN : Fld := ⟨.WVL_CHCTL, 3, 3⟩
abbrev WVL_CHCTL_CLEAR : Fld := ⟨.WVL_CHCTL, 2, 2⟩
abbrev WVL_CHCTL_DISABLE : Fld := ⟨.WVL_CHCTL, 1, 1⟩
abbrev WVL_CHCTL_ENABLE : Fld := ⟨.WVL_CHCTL, 0, 0⟩
abbrev WVL_PUSTAT_OP : Fld := ⟨.WVL_PUSTAT, 23, 16⟩
abbrev WVL_PUSTAT_WAITING : Fld := ⟨.WVL_PUSTAT, 11, 8⟩
abbrev WVL_PUSTAT_CH : Fld := ⟨.WVL_PUSTAT, 4, 2⟩
abbrev WVL_PUSTAT_BUSY : Fld := ⟨.WVL_PUSTAT, 0, 0⟩
abbrev WVL_DESCCNT_COUNT : Fld := ⟨.WVL_DESCCNT, 63, 0⟩
abbrev WVL_DROPCNT_COUNT : Fld := ⟨.WVL_DROPCNT, 63, 0⟩
abbrev WVL_CANCCNT_COUNT : Fld := ⟨.WVL_CANCCNT, 63, 0⟩
abbrev WVL_HOSTCNT_COUNT : Fld := ⟨.WVL_HOSTCNT, 63, 0⟩
abbrev WVL_CTRCLR_CLR : Fld := ⟨.WVL_CTRCLR, 3, 0⟩
abbrev WVL_ERRADDR_ADDR : Fld := ⟨.WVL_ERRADDR, 47, 0⟩
abbrev WVL_ERRSTAT_STATUS : Fld := ⟨.WVL_ERRSTAT, 31, 16⟩
abbrev WVL_ERRSTAT_CAUSE : Fld := ⟨.WVL_ERRSTAT, 15, 11⟩
abbrev WVL_ERRSTAT_CH : Fld := ⟨.WVL_ERRSTAT, 10, 8⟩
abbrev WVL_ERRSTAT_VALID : Fld := ⟨.WVL_ERRSTAT, 0, 0⟩
abbrev WVL_ERRCNT_COUNT : Fld := ⟨.WVL_ERRCNT, 63, 0⟩
abbrev SSK_REFCFG_OWEDLO : Fld := ⟨.SSK_REFCFG, 15, 8⟩
abbrev SSK_REFCFG_OWEDHI : Fld := ⟨.SSK_REFCFG, 7, 0⟩
abbrev SSK_RWQCFG_LOW : Fld := ⟨.SSK_RWQCFG, 15, 8⟩
abbrev SSK_RWQCFG_HIGH : Fld := ⟨.SSK_RWQCFG, 7, 0⟩
abbrev SSK_GCAP_CHANNELS : Fld := ⟨.SSK_GCAP, 8, 0⟩
abbrev SSK_STAT_HOT : Fld := ⟨.SSK_STAT, 16, 16⟩
abbrev SSK_STAT_ONLINE : Fld := ⟨.SSK_STAT, 13, 8⟩
abbrev SSK_STAT_OWNER : Fld := ⟨.SSK_STAT, 1, 1⟩
abbrev SSK_STAT_SCARAB : Fld := ⟨.SSK_STAT, 0, 0⟩
abbrev SSK_BAND_BAND : Fld := ⟨.SSK_BAND, 1, 0⟩
abbrev SSK_CHMAP_PENDING (j : Nat) : Fld := ⟨.SSK_CHMAP, 8 * j + 5, 8 * j + 5⟩
abbrev SSK_CHMAP_MOCAUSE (j : Nat) : Fld := ⟨.SSK_CHMAP, 8 * j + 4, 8 * j + 2⟩
abbrev SSK_CHMAP_STATE (j : Nat) : Fld := ⟨.SSK_CHMAP, 8 * j + 1, 8 * j + 0⟩
abbrev SSK_OWED_OWED (j : Nat) : Fld := ⟨.SSK_OWED, 8 * j + 7, 8 * j + 0⟩
abbrev SSK_CORRCNT_COUNT : Fld := ⟨.SSK_CORRCNT, 63, 0⟩
abbrev SSK_UNCCNT_COUNT : Fld := ⟨.SSK_UNCCNT, 63, 0⟩
abbrev SSK_FRZCNT_RWQ : Fld := ⟨.SSK_FRZCNT, 63, 32⟩
abbrev SSK_FRZCNT_REF : Fld := ⟨.SSK_FRZCNT, 31, 0⟩
abbrev SSK_HOSTCNT_COUNT : Fld := ⟨.SSK_HOSTCNT, 63, 0⟩
abbrev SSK_FILLCNT_COUNT : Fld := ⟨.SSK_FILLCNT, 63, 0⟩
abbrev SSK_REDCNT_INCOMPL : Fld := ⟨.SSK_REDCNT, 63, 32⟩
abbrev SSK_REDCNT_POIS : Fld := ⟨.SSK_REDCNT, 31, 0⟩
abbrev SSK_RESCNT_COUNT : Fld := ⟨.SSK_RESCNT, 63, 0⟩
abbrev SSK_CTRCLR_CLR : Fld := ⟨.SSK_CTRCLR, 6, 0⟩
abbrev SSK_PIN_VB : Fld := ⟨.SSK_PIN, 15, 15⟩
abbrev SSK_PIN_PINB : Fld := ⟨.SSK_PIN, 14, 8⟩
abbrev SSK_PIN_VA : Fld := ⟨.SSK_PIN, 7, 7⟩
abbrev SSK_PIN_PINA : Fld := ⟨.SSK_PIN, 6, 0⟩
abbrev SSK_ERRADDR_ADDR : Fld := ⟨.SSK_ERRADDR, 47, 0⟩
abbrev SSK_ERRSTAT_STATUS : Fld := ⟨.SSK_ERRSTAT, 31, 16⟩
abbrev SSK_ERRSTAT_CAUSE : Fld := ⟨.SSK_ERRSTAT, 15, 8⟩
abbrev SSK_ERRSTAT_CH : Fld := ⟨.SSK_ERRSTAT, 7, 3⟩
abbrev SSK_ERRSTAT_VALID : Fld := ⟨.SSK_ERRSTAT, 0, 0⟩
abbrev SSK_ERRCNT_COUNT : Fld := ⟨.SSK_ERRCNT, 63, 0⟩
abbrev SCB_RESCFG_FAILEN : Fld := ⟨.SCB_RESCFG, 16, 16⟩
abbrev SCB_RESCFG_LIMIT : Fld := ⟨.SCB_RESCFG, 15, 0⟩
abbrev SCB_GSTAT_ENMAP : Fld := ⟨.SCB_GSTAT, 7, 4⟩
abbrev SCB_GSTAT_LICENSED : Fld := ⟨.SCB_GSTAT, 0, 0⟩
abbrev SCB_CTL_EN : Fld := ⟨.SCB_CTL, 0, 0⟩
abbrev SCB_ACTIVE_LEASE : Fld := ⟨.SCB_ACTIVE, 31, 0⟩
abbrev SCB_FAIL_KAR : Fld := ⟨.SCB_FAIL, 63, 32⟩
abbrev SCB_FAIL_FAILED : Fld := ⟨.SCB_FAIL, 31, 0⟩
abbrev SCB_RESROW_RRHI : Fld := ⟨.SCB_RESROW, 46, 32⟩
abbrev SCB_RESROW_RRLO : Fld := ⟨.SCB_RESROW, 14, 0⟩
abbrev SCB_LEASECNT_COUNT : Fld := ⟨.SCB_LEASECNT, 63, 0⟩
abbrev SCB_REFUSECNT_COUNT : Fld := ⟨.SCB_REFUSECNT, 63, 0⟩
abbrev SCB_LEASEDCNT_COUNT : Fld := ⟨.SCB_LEASEDCNT, 63, 0⟩
abbrev SCB_SKIPCNT_COUNT : Fld := ⟨.SCB_SKIPCNT, 63, 0⟩
abbrev SCB_CORRCNT_COUNT : Fld := ⟨.SCB_CORRCNT, 63, 0⟩
abbrev SCB_UNCCNT_COUNT : Fld := ⟨.SCB_UNCCNT, 63, 0⟩
abbrev SCB_RESCNT_COUNT : Fld := ⟨.SCB_RESCNT, 63, 0⟩
abbrev SCB_CTRCLR_CLR : Fld := ⟨.SCB_CTRCLR, 6, 0⟩
abbrev SCB_RESLOG0_EPOCH : Fld := ⟨.SCB_RESLOG0, 63, 48⟩
abbrev SCB_RESLOG0_SCNT : Fld := ⟨.SCB_RESLOG0, 47, 0⟩
abbrev SCB_RESLOG1_VALID : Fld := ⟨.SCB_RESLOG1, 24, 24⟩
abbrev SCB_RESLOG1_CH : Fld := ⟨.SCB_RESLOG1, 20, 16⟩
abbrev SCB_RESLOG1_UNIT : Fld := ⟨.SCB_RESLOG1, 11, 8⟩
abbrev SCB_RESLOG1_CHECK : Fld := ⟨.SCB_RESLOG1, 3, 0⟩
abbrev SCB_ERRADDR_ADDR : Fld := ⟨.SCB_ERRADDR, 47, 0⟩
abbrev SCB_ERRSTAT_CH : Fld := ⟨.SCB_ERRSTAT, 36, 32⟩
abbrev SCB_ERRSTAT_STATUS : Fld := ⟨.SCB_ERRSTAT, 31, 16⟩
abbrev SCB_ERRSTAT_CAUSE : Fld := ⟨.SCB_ERRSTAT, 15, 8⟩
abbrev SCB_ERRSTAT_VALID : Fld := ⟨.SCB_ERRSTAT, 0, 0⟩
abbrev SCB_ERRCNT_COUNT : Fld := ⟨.SCB_ERRCNT, 63, 0⟩
abbrev NOC_DEADMAP_DARK : Fld := ⟨.NOC_DEADMAP, 63, 0⟩
abbrev NOC_MAPDIG_DIGEST : Fld := ⟨.NOC_MAPDIG, 63, 0⟩
abbrev NOC_COLLOG0_EPOCH : Fld := ⟨.NOC_COLLOG0, 63, 48⟩
abbrev NOC_COLLOG0_SCNT : Fld := ⟨.NOC_COLLOG0, 47, 0⟩
abbrev NOC_COLLOG1_VALID : Fld := ⟨.NOC_COLLOG1, 32, 32⟩
abbrev NOC_COLLOG1_PHASE : Fld := ⟨.NOC_COLLOG1, 24, 24⟩
abbrev NOC_COLLOG1_ROUTER : Fld := ⟨.NOC_COLLOG1, 16, 10⟩
abbrev NOC_COLLOG1_INB : Fld := ⟨.NOC_COLLOG1, 7, 4⟩
abbrev NOC_COLLOG1_INA : Fld := ⟨.NOC_COLLOG1, 3, 0⟩
abbrev NOC_COLCNT_COUNT : Fld := ⟨.NOC_COLCNT, 63, 0⟩
abbrev NOC_MISSCNT_COUNT : Fld := ⟨.NOC_MISSCNT, 63, 0⟩
abbrev NOC_DEADCNT_COUNT : Fld := ⟨.NOC_DEADCNT, 63, 0⟩
abbrev NOC_HOSTCNT_COUNT : Fld := ⟨.NOC_HOSTCNT, 63, 0⟩
abbrev NOC_CTRCLR_CLR : Fld := ⟨.NOC_CTRCLR, 3, 0⟩
abbrev NOC_ERRADDR_ADDR : Fld := ⟨.NOC_ERRADDR, 47, 0⟩
abbrev NOC_ERRSTAT_ROUTER : Fld := ⟨.NOC_ERRSTAT, 22, 16⟩
abbrev NOC_ERRSTAT_PORT : Fld := ⟨.NOC_ERRSTAT, 15, 12⟩
abbrev NOC_ERRSTAT_CAUSE : Fld := ⟨.NOC_ERRSTAT, 11, 4⟩
abbrev NOC_ERRSTAT_VALID : Fld := ⟨.NOC_ERRSTAT, 0, 0⟩
abbrev NOC_ERRCNT_COUNT : Fld := ⟨.NOC_ERRCNT, 63, 0⟩
abbrev ITL_CLASS_HALFMAP : Fld := ⟨.ITL_CLASS, 63, 48⟩
abbrev ITL_CLASS_FENCEMAP : Fld := ⟨.ITL_CLASS, 47, 32⟩
abbrev ITL_CLASS_CLASS : Fld := ⟨.ITL_CLASS, 12, 8⟩
abbrev ITL_CLASS_UNITS : Fld := ⟨.ITL_CLASS, 5, 0⟩
abbrev ITL_LATECNT_COUNT : Fld := ⟨.ITL_LATECNT, 63, 0⟩
abbrev ITL_STAT_SUBV : Fld := ⟨.ITL_STAT, 40, 40⟩
abbrev ITL_STAT_SUBST : Fld := ⟨.ITL_STAT, 39, 36⟩
abbrev ITL_STAT_F1 : Fld := ⟨.ITL_STAT, 35, 32⟩
abbrev ITL_STAT_F0 : Fld := ⟨.ITL_STAT, 31, 28⟩
abbrev ITL_STAT_SPUSED1 : Fld := ⟨.ITL_STAT, 22, 20⟩
abbrev ITL_STAT_SPUSED0 : Fld := ⟨.ITL_STAT, 18, 16⟩
abbrev ITL_STAT_ATTEMPT : Fld := ⟨.ITL_STAT, 9, 8⟩
abbrev ITL_STAT_WIDTH : Fld := ⟨.ITL_STAT, 5, 4⟩
abbrev ITL_STAT_STATE : Fld := ⟨.ITL_STAT, 2, 0⟩
abbrev ITL_CTL_FENCE : Fld := ⟨.ITL_CTL, 1, 1⟩
abbrev ITL_CTL_RETRAIN : Fld := ⟨.ITL_CTL, 0, 0⟩
abbrev ITL_FLANE0_FAILED : Fld := ⟨.ITL_FLANE0, 63, 0⟩
abbrev ITL_FLANE1_FAILED : Fld := ⟨.ITL_FLANE1, 63, 0⟩
abbrev ITL_FSPARE_SPARE1 : Fld := ⟨.ITL_FSPARE, 11, 8⟩
abbrev ITL_FSPARE_SPARE0 : Fld := ⟨.ITL_FSPARE, 3, 0⟩
abbrev ITL_CREDIT_CRED : Fld := ⟨.ITL_CREDIT, 63, 0⟩
abbrev ITL_CRCCNT_DIR1 : Fld := ⟨.ITL_CRCCNT, 63, 32⟩
abbrev ITL_CRCCNT_DIR0 : Fld := ⟨.ITL_CRCCNT, 31, 0⟩
abbrev ITL_REPLAYCNT_COUNT : Fld := ⟨.ITL_REPLAYCNT, 63, 0⟩
abbrev ITL_STALLCNT_COUNT : Fld := ⟨.ITL_STALLCNT, 63, 0⟩
abbrev ITL_RETRAINCNT_FULL : Fld := ⟨.ITL_RETRAINCNT, 63, 32⟩
abbrev ITL_RETRAINCNT_FAST : Fld := ⟨.ITL_RETRAINCNT, 31, 0⟩
abbrev ITL_CTRCLR_CLR : Fld := ⟨.ITL_CTRCLR, 4, 0⟩
abbrev ETH_HOSTTMO_TMO : Fld := ⟨.ETH_HOSTTMO, 31, 0⟩
abbrev ETH_STAT_QPS : Fld := ⟨.ETH_STAT, 32, 24⟩
abbrev ETH_STAT_PFCRX : Fld := ⟨.ETH_STAT, 23, 16⟩
abbrev ETH_STAT_PFCTX : Fld := ⟨.ETH_STAT, 15, 8⟩
abbrev ETH_STAT_MODE : Fld := ⟨.ETH_STAT, 4, 4⟩
abbrev ETH_STAT_RATE : Fld := ⟨.ETH_STAT, 3, 1⟩
abbrev ETH_STAT_LINK : Fld := ⟨.ETH_STAT, 0, 0⟩
abbrev ETH_CTL_RPRI : Fld := ⟨.ETH_CTL, 6, 4⟩
abbrev ETH_CTL_FIXRATE : Fld := ⟨.ETH_CTL, 2, 1⟩
abbrev ETH_CTL_AN : Fld := ⟨.ETH_CTL, 0, 0⟩
abbrev ETH_PFCCFG_XON : Fld := ⟨.ETH_PFCCFG, 31, 16⟩
abbrev ETH_PFCCFG_XOFF : Fld := ⟨.ETH_PFCCFG, 15, 0⟩
abbrev ETH_MAC_MAC : Fld := ⟨.ETH_MAC, 47, 0⟩
abbrev ETH_IP4_ADDR : Fld := ⟨.ETH_IP4, 31, 0⟩
abbrev ETH_IP6L_ADDR : Fld := ⟨.ETH_IP6L, 63, 0⟩
abbrev ETH_IP6H_ADDR : Fld := ⟨.ETH_IP6H, 63, 0⟩
abbrev ETH_RXFRM_COUNT : Fld := ⟨.ETH_RXFRM, 63, 0⟩
abbrev ETH_TXFRM_COUNT : Fld := ⟨.ETH_TXFRM, 63, 0⟩
abbrev ETH_RXDROP_COUNT : Fld := ⟨.ETH_RXDROP, 63, 0⟩
abbrev ETH_FECCNT_UNCORR : Fld := ⟨.ETH_FECCNT, 63, 32⟩
abbrev ETH_FECCNT_CORR : Fld := ⟨.ETH_FECCNT, 31, 0⟩
abbrev ETH_PAUSECNT_TX : Fld := ⟨.ETH_PAUSECNT, 63, 32⟩
abbrev ETH_PAUSECNT_RX : Fld := ⟨.ETH_PAUSECNT, 31, 0⟩
abbrev ETH_CNPCNT_COUNT : Fld := ⟨.ETH_CNPCNT, 63, 0⟩
abbrev ETH_CTRCLR_CLR : Fld := ⟨.ETH_CTRCLR, 5, 0⟩
abbrev ETH_ERRADDR_ADDR : Fld := ⟨.ETH_ERRADDR, 47, 0⟩
abbrev ETH_ERRSTAT_STATUS : Fld := ⟨.ETH_ERRSTAT, 31, 16⟩
abbrev ETH_ERRSTAT_QP : Fld := ⟨.ETH_ERRSTAT, 15, 8⟩
abbrev ETH_ERRSTAT_VALID : Fld := ⟨.ETH_ERRSTAT, 0, 0⟩
abbrev ETH_ERRCNT_COUNT : Fld := ⟨.ETH_ERRCNT, 63, 0⟩
abbrev ECP_KEYSTAT_KCV : Fld := ⟨.ECP_KEYSTAT, 63, 32⟩
abbrev ECP_KEYSTAT_PRESENT : Fld := ⟨.ECP_KEYSTAT, 0, 0⟩
abbrev ECP_SESSNEXT_NEXT : Fld := ⟨.ECP_SESSNEXT, 31, 0⟩
abbrev ECP_QPSTAT_RQPN : Fld := ⟨.ECP_QPSTAT, 55, 32⟩
abbrev ECP_QPSTAT_LOCK : Fld := ⟨.ECP_QPSTAT, 9, 9⟩
abbrev ECP_QPSTAT_SESS : Fld := ⟨.ECP_QPSTAT, 8, 8⟩
abbrev ECP_QPSTAT_PORT : Fld := ⟨.ECP_QPSTAT, 6, 4⟩
abbrev ECP_QPSTAT_STATE : Fld := ⟨.ECP_QPSTAT, 2, 0⟩
abbrev ECP_RGIDL_GID : Fld := ⟨.ECP_RGIDL, 63, 0⟩
abbrev ECP_RGIDH_GID : Fld := ⟨.ECP_RGIDH, 63, 0⟩
abbrev ECP_SESSION_MINSEV : Fld := ⟨.ECP_SESSION, 39, 32⟩
abbrev ECP_SESSION_SESSION : Fld := ⟨.ECP_SESSION, 31, 0⟩
abbrev ECP_CMDCNT_REFUSED : Fld := ⟨.ECP_CMDCNT, 63, 32⟩
abbrev ECP_CMDCNT_ACCEPTED : Fld := ⟨.ECP_CMDCNT, 31, 0⟩
abbrev ECP_AUTHFAIL_COUNT : Fld := ⟨.ECP_AUTHFAIL, 63, 0⟩
abbrev ECP_EVLOST_COUNT : Fld := ⟨.ECP_EVLOST, 63, 0⟩
abbrev CIC_STAT_LCAUSE : Fld := ⟨.CIC_STAT, 23, 20⟩
abbrev CIC_STAT_BCAUSE : Fld := ⟨.CIC_STAT, 19, 16⟩
abbrev CIC_STAT_P7UP : Fld := ⟨.CIC_STAT, 12, 12⟩
abbrev CIC_STAT_P6UP : Fld := ⟨.CIC_STAT, 11, 11⟩
abbrev CIC_STAT_PENDING : Fld := ⟨.CIC_STAT, 10, 10⟩
abbrev CIC_STAT_PACED : Fld := ⟨.CIC_STAT, 9, 9⟩
abbrev CIC_STAT_SYNCED : Fld := ⟨.CIC_STAT, 8, 8⟩
abbrev CIC_STAT_PATH : Fld := ⟨.CIC_STAT, 7, 7⟩
abbrev CIC_STAT_ROLE : Fld := ⟨.CIC_STAT, 6, 6⟩
abbrev CIC_STAT_MODE : Fld := ⟨.CIC_STAT, 5, 4⟩
abbrev CIC_STAT_PSTATE : Fld := ⟨.CIC_STAT, 2, 0⟩
abbrev CIC_CFG_RELAYQP : Fld := ⟨.CIC_CFG, 15, 8⟩
abbrev CIC_CFG_DIVHALT : Fld := ⟨.CIC_CFG, 0, 0⟩
abbrev CIC_PEERUID_UID : Fld := ⟨.CIC_PEERUID, 63, 0⟩
abbrev CIC_PEERSTEP_STEP : Fld := ⟨.CIC_PEERSTEP, 63, 0⟩
abbrev CIC_LASTIN_STEP : Fld := ⟨.CIC_LASTIN, 63, 0⟩
abbrev CIC_HASHSTEP_STEP : Fld := ⟨.CIC_HASHSTEP, 63, 0⟩
abbrev CIC_APPLIED_STEP : Fld := ⟨.CIC_APPLIED, 63, 0⟩
abbrev CIC_JBUF_LEN : Fld := ⟨.CIC_JBUF, 63, 48⟩
abbrev CIC_JBUF_BASE : Fld := ⟨.CIC_JBUF, 47, 0⟩
abbrev CIC_DIVLOG0_STEP : Fld := ⟨.CIC_DIVLOG0, 63, 0⟩
abbrev CIC_DIVLOG1_LHASH : Fld := ⟨.CIC_DIVLOG1, 63, 0⟩
abbrev CIC_DIVLOG2_PHASH : Fld := ⟨.CIC_DIVLOG2, 63, 0⟩
abbrev CIC_DIVLOG3_PPOIS : Fld := ⟨.CIC_DIVLOG3, 2, 2⟩
abbrev CIC_DIVLOG3_LPOIS : Fld := ⟨.CIC_DIVLOG3, 1, 1⟩
abbrev CIC_DIVLOG3_VALID : Fld := ⟨.CIC_DIVLOG3, 0, 0⟩
abbrev CIC_HBCNT_LOST : Fld := ⟨.CIC_HBCNT, 63, 32⟩
abbrev CIC_HBCNT_MISSED : Fld := ⟨.CIC_HBCNT, 31, 0⟩
abbrev CIC_FRMCNT_RX : Fld := ⟨.CIC_FRMCNT, 63, 32⟩
abbrev CIC_FRMCNT_TX : Fld := ⟨.CIC_FRMCNT, 31, 0⟩
abbrev CIC_CRCCNT_REPLAY : Fld := ⟨.CIC_CRCCNT, 63, 32⟩
abbrev CIC_CRCCNT_BAD : Fld := ⟨.CIC_CRCCNT, 31, 0⟩
abbrev CIC_CMPCNT_UNCMP : Fld := ⟨.CIC_CMPCNT, 63, 44⟩
abbrev CIC_CMPCNT_DIVERGE : Fld := ⟨.CIC_CMPCNT, 43, 32⟩
abbrev CIC_CMPCNT_MATCH : Fld := ⟨.CIC_CMPCNT, 31, 0⟩
abbrev CIC_PACECNT_COUNT : Fld := ⟨.CIC_PACECNT, 63, 0⟩
abbrev CIC_CTRCLR_CLR : Fld := ⟨.CIC_CTRCLR, 4, 0⟩
abbrev CIC_ERRADDR_ADDR : Fld := ⟨.CIC_ERRADDR, 47, 0⟩
abbrev CIC_ERRSTAT_STATUS : Fld := ⟨.CIC_ERRSTAT, 31, 16⟩
abbrev CIC_ERRSTAT_CAUSE : Fld := ⟨.CIC_ERRSTAT, 15, 8⟩
abbrev CIC_ERRSTAT_VALID : Fld := ⟨.CIC_ERRSTAT, 0, 0⟩
abbrev CIC_ERRCNT_COUNT : Fld := ⟨.CIC_ERRCNT, 63, 0⟩
abbrev PWR_CAP_HOSTCAP : Fld := ⟨.PWR_CAP, 47, 32⟩
abbrev PWR_CAP_CAP : Fld := ⟨.PWR_CAP, 31, 16⟩
abbrev PWR_CAP_BIND : Fld := ⟨.PWR_CAP, 4, 0⟩
abbrev PWR_CAPCFG_KCOOL : Fld := ⟨.PWR_CAPCFG, 31, 16⟩
abbrev PWR_CAPCFG_PSTAT : Fld := ⟨.PWR_CAPCFG, 15, 0⟩
abbrev PWR_GATE_FLOOR : Fld := ⟨.PWR_GATE, 15, 12⟩
abbrev PWR_GATE_GT : Fld := ⟨.PWR_GATE, 11, 8⟩
abbrev PWR_GATE_GLAW : Fld := ⟨.PWR_GATE, 3, 0⟩
abbrev PWR_MEAS_PMAX : Fld := ⟨.PWR_MEAS, 31, 16⟩
abbrev PWR_MEAS_PM : Fld := ⟨.PWR_MEAS, 15, 0⟩
abbrev PWR_COOL_AGE : Fld := ⟨.PWR_COOL, 63, 48⟩
abbrev PWR_COOL_FLOW : Fld := ⟨.PWR_COOL, 47, 32⟩
abbrev PWR_COOL_OUTLET : Fld := ⟨.PWR_COOL, 31, 16⟩
abbrev PWR_COOL_INLET : Fld := ⟨.PWR_COOL, 15, 0⟩
abbrev PWR_SHUT_INST : Fld := ⟨.PWR_SHUT, 47, 40⟩
abbrev PWR_SHUT_TEMP : Fld := ⟨.PWR_SHUT, 31, 16⟩
abbrev PWR_SHUT_CAUSE : Fld := ⟨.PWR_SHUT, 11, 8⟩
abbrev PWR_SHUT_LATCH : Fld := ⟨.PWR_SHUT, 0, 0⟩
abbrev PWR_RAIL_ISTK : Fld := ⟨.PWR_RAIL, 63, 48⟩
abbrev PWR_RAIL_IVLT : Fld := ⟨.PWR_RAIL, 47, 32⟩
abbrev PWR_RAIL_IIN : Fld := ⟨.PWR_RAIL, 31, 16⟩
abbrev PWR_RAIL_VIN : Fld := ⟨.PWR_RAIL, 15, 0⟩
abbrev PWR_VMINCFG_EVTHR : Fld := ⟨.PWR_VMINCFG, 15, 8⟩
abbrev PWR_VMINCFG_BBTHR : Fld := ⟨.PWR_VMINCFG, 7, 0⟩
abbrev PWR_CLSTAT_VRET : Fld := ⟨.PWR_CLSTAT, 12, 12⟩
abbrev PWR_CLSTAT_ODRFAIL : Fld := ⟨.PWR_CLSTAT, 11, 8⟩
abbrev PWR_CLSTAT_STATE : Fld := ⟨.PWR_CLSTAT, 2, 0⟩
abbrev PWR_CLCTL_CHRYS : Fld := ⟨.PWR_CLCTL, 0, 0⟩
abbrev PWR_VSET_CODE : Fld := ⟨.PWR_VSET, 7, 0⟩
abbrev PWR_IMEAS_I (j : Nat) : Fld := ⟨.PWR_IMEAS, 16 * j + 15, 16 * j + 0⟩
abbrev PWR_VMIN_VALID : Fld := ⟨.PWR_VMIN, 63, 63⟩
abbrev PWR_VMIN_CODE : Fld := ⟨.PWR_VMIN, 55, 48⟩
abbrev PWR_VMIN_SCNT : Fld := ⟨.PWR_VMIN, 47, 0⟩
abbrev PWR_VMINT_TIME : Fld := ⟨.PWR_VMINT, 63, 0⟩
abbrev THM_LIMITS_SSTACK : Fld := ⟨.THM_LIMITS, 47, 40⟩
abbrev THM_LIMITS_SVAULT : Fld := ⟨.THM_LIMITS, 39, 32⟩
abbrev THM_LIMITS_SLOGIC : Fld := ⟨.THM_LIMITS, 31, 24⟩
abbrev THM_LIMITS_HSTACK : Fld := ⟨.THM_LIMITS, 23, 16⟩
abbrev THM_LIMITS_HVAULT : Fld := ⟨.THM_LIMITS, 15, 8⟩
abbrev THM_LIMITS_HLOGIC : Fld := ⟨.THM_LIMITS, 7, 0⟩
abbrev THM_SNSCLR_ALL : Fld := ⟨.THM_SNSCLR, 8, 8⟩
abbrev THM_SNSCLR_INST : Fld := ⟨.THM_SNSCLR, 7, 0⟩
abbrev THM_EVCNT_CONFLICT : Fld := ⟨.THM_EVCNT, 63, 32⟩
abbrev THM_EVCNT_SUSPECT : Fld := ⟨.THM_EVCNT, 31, 0⟩
abbrev THM_MODEL0_L2 : Fld := ⟨.THM_MODEL0, 63, 48⟩
abbrev THM_MODEL0_L1 : Fld := ⟨.THM_MODEL0, 47, 32⟩
abbrev THM_MODEL0_L0 : Fld := ⟨.THM_MODEL0, 31, 16⟩
abbrev THM_MODEL0_LOGIC : Fld := ⟨.THM_MODEL0, 15, 0⟩
abbrev THM_MODEL1_L3 : Fld := ⟨.THM_MODEL1, 15, 0⟩
abbrev THM_WORK_WL0 : Fld := ⟨.THM_WORK, 31, 16⟩
abbrev THM_WORK_WSPOT : Fld := ⟨.THM_WORK, 15, 0⟩
abbrev THM_SNS_CONFLICT : Fld := ⟨.THM_SNS, 37, 37⟩
abbrev THM_SNS_SPLIT : Fld := ⟨.THM_SNS, 36, 36⟩
abbrev THM_SNS_SUSB : Fld := ⟨.THM_SNS, 35, 35⟩
abbrev THM_SNS_SUSA : Fld := ⟨.THM_SNS, 34, 34⟩
abbrev THM_SNS_SB : Fld := ⟨.THM_SNS, 31, 16⟩
abbrev THM_SNS_SA : Fld := ⟨.THM_SNS, 15, 0⟩
abbrev THM_CORR_CV : Fld := ⟨.THM_CORR, 31, 16⟩
abbrev THM_CORR_CL : Fld := ⟨.THM_CORR, 15, 0⟩
abbrev MLT_STAT_LASTST : Fld := ⟨.MLT_STAT, 31, 16⟩
abbrev MLT_STAT_STEP : Fld := ⟨.MLT_STAT, 11, 8⟩
abbrev MLT_STAT_INCOMPL : Fld := ⟨.MLT_STAT, 2, 2⟩
abbrev MLT_STAT_COMMIT : Fld := ⟨.MLT_STAT, 1, 1⟩
abbrev MLT_STAT_BUSY : Fld := ⟨.MLT_STAT, 0, 0⟩
abbrev MLT_RETIRED_RETIRED : Fld := ⟨.MLT_RETIRED, 63, 0⟩
abbrev MLT_MAP_VALID (j : Nat) : Fld := ⟨.MLT_MAP, 8 * j + 7, 8 * j + 7⟩
abbrev MLT_MAP_PCLUS (j : Nat) : Fld := ⟨.MLT_MAP, 8 * j + 6, 8 * j + 0⟩
abbrev MLT_COUNT_MOLTS : Fld := ⟨.MLT_COUNT, 63, 32⟩
abbrev MLT_COUNT_MOVED : Fld := ⟨.MLT_COUNT, 31, 0⟩
abbrev BST_BRINGUP_TOTAL : Fld := ⟨.BST_BRINGUP, 63, 32⟩
abbrev BST_BRINGUP_FAILPH : Fld := ⟨.BST_BRINGUP, 11, 8⟩
abbrev BST_BRINGUP_PHASE : Fld := ⟨.BST_BRINGUP, 3, 0⟩
abbrev BST_PHTIME_MS (j : Nat) : Fld := ⟨.BST_PHTIME, 16 * j + 15, 16 * j + 0⟩
abbrev BST_LBCFG_CDIV : Fld := ⟨.BST_LBCFG, 3, 0⟩
abbrev BST_LBSTAT_LASTST : Fld := ⟨.BST_LBSTAT, 31, 16⟩
abbrev BST_LBSTAT_GROUPS : Fld := ⟨.BST_LBSTAT, 15, 8⟩
abbrev BST_LBSTAT_BUSY : Fld := ⟨.BST_LBSTAT, 0, 0⟩
abbrev BST_LBFAIL_FAILED : Fld := ⟨.BST_LBFAIL, 63, 0⟩
abbrev BST_KARFAIL_FAILED : Fld := ⟨.BST_KARFAIL, 63, 0⟩
abbrev BST_KARLOG_SIGLO : Fld := ⟨.BST_KARLOG, 63, 32⟩
abbrev BST_KARLOG_UNIT : Fld := ⟨.BST_KARLOG, 31, 24⟩
abbrev BST_KARLOG_SUB : Fld := ⟨.BST_KARLOG, 15, 8⟩
abbrev BST_KARLOG_ENGINE : Fld := ⟨.BST_KARLOG, 7, 4⟩
abbrev BST_KARLOG_VALID : Fld := ⟨.BST_KARLOG, 0, 0⟩
abbrev LIC_STAT_KEYREV : Fld := ⟨.LIC_STAT, 15, 12⟩
abbrev LIC_STAT_PEND : Fld := ⟨.LIC_STAT, 11, 11⟩
abbrev LIC_STAT_INFORCE : Fld := ⟨.LIC_STAT, 10, 8⟩
abbrev LIC_STAT_FIELD : Fld := ⟨.LIC_STAT, 6, 4⟩
abbrev LIC_STAT_FACTORY : Fld := ⟨.LIC_STAT, 2, 0⟩
abbrev LIC_UID_UID : Fld := ⟨.LIC_UID, 63, 0⟩
abbrev LIC_SVCTIME_SECONDS : Fld := ⟨.LIC_SVCTIME, 63, 0⟩
abbrev LIC_ERRSTAT_STATUS : Fld := ⟨.LIC_ERRSTAT, 31, 16⟩
abbrev LIC_ERRSTAT_CAUSE : Fld := ⟨.LIC_ERRSTAT, 15, 8⟩
abbrev LIC_ERRSTAT_VALID : Fld := ⟨.LIC_ERRSTAT, 0, 0⟩
abbrev LIC_SLOTA_SERIAL : Fld := ⟨.LIC_SLOTA, 63, 32⟩
abbrev LIC_SLOTA_VALID : Fld := ⟨.LIC_SLOTA, 8, 8⟩
abbrev LIC_SLOTA_FEATURES : Fld := ⟨.LIC_SLOTA, 2, 0⟩
abbrev LIC_SLOTB_NOT_AFTER : Fld := ⟨.LIC_SLOTB, 63, 0⟩
abbrev FUS_STAT_BAD : Fld := ⟨.FUS_STAT, 41, 32⟩
abbrev FUS_STAT_USED : Fld := ⟨.FUS_STAT, 25, 16⟩
abbrev FUS_STAT_NEXT : Fld := ⟨.FUS_STAT, 9, 0⟩
abbrev FUS_SEL_CLASS : Fld := ⟨.FUS_SEL, 13, 12⟩
abbrev FUS_SEL_SLOT : Fld := ⟨.FUS_SEL, 8, 0⟩
abbrev FUS_RECLO_DATA : Fld := ⟨.FUS_RECLO, 63, 0⟩
abbrev FUS_RECHI_DATA : Fld := ⟨.FUS_RECHI, 63, 0⟩
abbrev SYS_ORDER_ORDER : Fld := ⟨.SYS_ORDER, 7, 0⟩
abbrev SYS_CHMAPDIG_DIGEST : Fld := ⟨.SYS_CHMAPDIG, 63, 0⟩
abbrev SYS_UTIME_TIME : Fld := ⟨.SYS_UTIME, 63, 0⟩
abbrev SYS_EVLOST_COUNT : Fld := ⟨.SYS_EVLOST, 63, 0⟩
abbrev SYS_ERRADDR_ADDR : Fld := ⟨.SYS_ERRADDR, 47, 0⟩
abbrev SYS_ERRSTAT_STATUS : Fld := ⟨.SYS_ERRSTAT, 31, 16⟩
abbrev SYS_ERRSTAT_CAUSE : Fld := ⟨.SYS_ERRSTAT, 15, 8⟩
abbrev SYS_ERRSTAT_VALID : Fld := ⟨.SYS_ERRSTAT, 0, 0⟩
abbrev SYS_ERRCNT_COUNT : Fld := ⟨.SYS_ERRCNT, 63, 0⟩
abbrev BBR_CFG_THRESH : Fld := ⟨.BBR_CFG, 3, 0⟩
abbrev BBR_OLDEST_SEQ : Fld := ⟨.BBR_OLDEST, 63, 0⟩
abbrev BBR_NEWEST_SEQ : Fld := ⟨.BBR_NEWEST, 63, 0⟩
abbrev BBR_PENDING_SEQ : Fld := ⟨.BBR_PENDING, 63, 0⟩
abbrev BBR_QSTAT_LOST : Fld := ⟨.BBR_QSTAT, 63, 32⟩
abbrev BBR_QSTAT_FILL : Fld := ⟨.BBR_QSTAT, 10, 0⟩
abbrev BBR_DEVSTAT_OKB : Fld := ⟨.BBR_DEVSTAT, 33, 33⟩
abbrev BBR_DEVSTAT_OKA : Fld := ⟨.BBR_DEVSTAT, 32, 32⟩
abbrev BBR_DEVSTAT_BADB : Fld := ⟨.BBR_DEVSTAT, 25, 16⟩
abbrev BBR_DEVSTAT_BADA : Fld := ⟨.BBR_DEVSTAT, 9, 0⟩
end F

end Sys2Proof.Machine
end

