-- ==== Sys2Proof/Machine/State.lean ====
section
/-!
DEFINITION. The state of the block as plain data: everything the spec gives it, and the queue of commands that wait. Registers live in one
sparse map by device address (an unlisted register holds its reset value), memory in one sparse map by device address.
-/
namespace Sys2Proof.Machine

/-! ### The stream (chapter 02) -/

/-- The stream states of R110. -/
inductive StreamState where
  | idle | loaded | running | stalled | trapped | halted | faulted
  deriving DecidableEq, Repr

/-- A stall request of R95. `raised` and `released` are real CCLK cycles; `unit` tells requests of one source apart. -/
structure StallReq where
  src : Nat
  half : Nat
  unit : Nat
  raised : Nat
  released : Option Nat := none
  /-- raised for a step boundary 24 bundles ahead (R111): its time counts in bundles -/
  step : Bool := false
  deriving DecidableEq, Repr

/-- A freeze in progress (R96 to R102), in stall cycles from its first frozen cycle. -/
structure Freeze where
  /-- stall cycles that have passed -/
  cyc : Nat
  /-- a request holds or has held it -/
  held : Bool
  /-- the stall cycle in which its gated frames end; 0 without any -/
  gateEnd : Nat
  /-- the stall cycle its timer counts from (R101) -/
  timedFrom : Nat
  deriving DecidableEq, Repr

/-- A stream trap that was detected (R107): the failing core, its cause, the word's device address, the SCNT of the bundle
due to use the word, and the real cycle of the detection. -/
structure TrapRec where
  core : Nat
  cause : Nat
  addr : Nat
  scnt : Nat
  raised : Nat
  deriving DecidableEq, Repr

/-- A pending entry of an input mailbox slot (R93), with the SCNT at which it becomes present (R91) and the real cycle its
write reached the receiving half's controller. -/
structure MbxPend where
  slot : Nat
  bytes : List Byte
  due : Nat
  deriving DecidableEq, Repr

/-- The stream controllers: the states, the block position and the poll. Both halves hold the same values. -/
structure Stream where
  st : StreamState := .idle
  /-- halted at an END block -/
  ended : Bool := false
  /-- halted at a step boundary -/
  atStep : Bool := false
  /-- EPOCH × 2^48 + SCNT -/
  scnt : BitVec 64 := 0
  /-- RUNNING since STREAM_START, SCNT 0 not yet reached (R105) -/
  starting : Bool := false
  /-- a REPLAY standby holds the start for its input record (R458) -/
  startHeld : Bool := false
  blk : Nat := 0
  off : Nat := 0
  /-- ends taken so far of each LOOP block -/
  loops : List (Nat × Nat) := []
  /-- SCNT at the previous step boundary -/
  stepBase : Nat := 0
  /-- condition lines of the current block, PEXP in time for its decision (R87) -/
  cond : Nat := 0
  /-- the latest poll took an entry -/
  taken : Bool := false
  /-- STR_HOSTCOND as the latest poll latched it -/
  hostLatch : Nat := 0
  /-- slots and contents the poll in progress captured (R92) -/
  captured : List (Nat × List Byte) := []
  /-- present bits of the input slots -/
  present : List (Nat × Bool) := []
  pendingMbx : List MbxPend := []
  /-- MBXMASK of every core (R92): the slots whose bit is 1 -/
  mbxmask : List (Nat × Bool) := []
  /-- SCNT of the compiled boundary a pending STREAM_HALT in mode STEP waits for (R111) -/
  haltStep : Option Nat := none
  /-- output slots that the step in progress has written (R94) -/
  outSeen : List (Nat × Bool) := []
  deriving DecidableEq, Repr

/-- The global stall (R95 to R103). -/
structure Stall where
  reqs : List StallReq := []
  frz : Option Freeze := none
  /-- traps detected and not yet recorded -/
  traps : List TrapRec := []
  /-- cores that a trap holds, and the SCNT of bundle d (R578) -/
  held : List (Nat × Nat) := []
  /-- the core whose trap STR_TRAP* records and STREAM_RESUME has not yet repaired -/
  recorded : Option Nat := none
  /-- the blocks entered lately, latest first, with the SCNT of their first bundle -/
  path : List (Nat × Nat) := []
  /-- the real cycle in which the current gating window began -/
  window : Nat := 0
  /-- windows are counted -/
  windows : Bool := false
  /-- the real cycle of the first gated frame of the window -/
  gateAt : Option Nat := none
  /-- values of GATE_EFF that wait for their window, and the real cycle each came in (R102) -/
  gateNew : List (Nat × Nat) := []
  /-- bundles left of a debug step (R103) -/
  debugLeft : Option Nat := none
  /-- stall lanes in service, bit 2h + lane for lane of direction from half h (R100) -/
  lanes : Nat := 15
  /-- frames with a bad CRC in the current 65,536, per lane (R388) -/
  laneBad : List (Nat × Nat) := []
  deriving DecidableEq, Repr

/-! ### The core (chapters 03 and 04) -/

/-- The accumulator of R132: value a × 2^(w − 40), four flags, contributions since its clear, and poison. -/
structure Acc where
  a : Int := 0
  w : Int := 0
  cnt : Nat := 0
  nan : Bool := false
  pinf : Bool := false
  ninf : Bool := false
  ovf : Bool := false
  pois : Bool := false
  deriving DecidableEq, Repr

/-- A finite product m × 2^e with its combined block exponent (R134, R135). -/
structure Prod where
  m : Int
  e : Int
  be : Int
  deriving DecidableEq, Repr

/-- The products of one column of an output row on their way down the array. -/
structure ColSum where
  col : Nat
  prods : List Prod := []
  /-- contributions, and those of NaN, +∞ and −∞ -/
  cnt : Nat := 0
  nan : Bool := false
  pinf : Bool := false
  ninf : Bool := false
  /-- the largest combined block exponent of the NaN and infinite ones (R135) -/
  top : Option Int := none
  pois : Bool := false
  deriving DecidableEq, Repr

/-- An output row that was issued (R162): where its sums go and how the row is drained (R168). -/
structure ARow where
  row : Nat
  clr : Bool
  drn : Bool
  w : Int
  fmt : Fmt
  cols : List ColSum
  /-- scratch offsets of the lines of the drain, and whether their access is poisoned (R149) -/
  out : List Int
  outBad : Bool := false
  /-- the stationary set the row used: false A, true B -/
  set : Bool
  /-- the SCNT it was issued in -/
  issued : Nat
  deriving DecidableEq, Repr

/-- A row whose sums have reached the accumulators less than 130 cc after its issue (R172): its set, SCNT of issue, accumulator row, the
columns whose accumulators still hold its sums, and the lines of its drain. -/
structure Landed where
  set : Bool
  issued : Nat
  row : Nat
  cols : List Nat
  out : List Int
  deriving DecidableEq, Repr

/-- One stationary set of one half of the array (R170): the tile and scale bytes as loaded, the format, and whether its
load has completed. -/
structure StatSet where
  elems : Line := []
  scales : Line := []
  fmt : Nat := 2
  loaded : Bool := true
  deriving DecidableEq, Repr

/-- Half of the array's sequencing: its queues and its pass (R165 to R167). Full mode uses side 0. -/
structure ASide where
  eq : Line := []
  sq : Line := []
  /-- rows are issued poisoned until the queues next run empty (R166) -/
  ovf : Bool := false
  tpl : Nat := 0
  passRow : Nat := 0
  /-- the cycle within a BF16 row (R163) -/
  bf : Nat := 0
  deriving DecidableEq, Repr

/-- The matrix array of a core. Sets are kept by 2 × side + (0 for A, 1 for B). -/
structure Arr where
  sets : List (Nat × StatSet) := []
  /-- SCNT until which each set stays busy (R171) -/
  busyA : Nat := 0
  busyB : Nat := 0
  side0 : ASide := {}
  side1 : ASide := {}
  /-- load cycles done of the load in progress, and its template -/
  loadCyc : Nat := 0
  loadTpl : Nat := 0
  /-- rows are issued poisoned until the next swap (R172) -/
  badSwap : Bool := false
  accs : List (Nat × Acc) := []
  landed : List Landed := []
  /-- cycles of the ramp in progress -/
  rampI : Nat := 0
  deriving DecidableEq, Repr

/-- A run of the matrix-vector unit into one bank (R186): its template, its first entry and its rows, the row and element it has reached,
the scale bytes of the tile in hand, bytes of an unfinished element group, bytes of padding still to pass, whether bytes came beyond the
run, and the entries of earlier runs into the bank, not drained since, whose bytes did not all arrive. -/
structure MvRun where
  tpl : Nat := 0
  ebase : Nat := 0
  nrow : Nat := 0
  row : Nat := 0
  elem : Nat := 0
  scales : Line := []
  needScales : Nat := 0
  carry : Line := []
  pad : Nat := 0
  extra : Bool := false
  broken : List Nat := []
  live : Bool := false
  deriving DecidableEq, Repr

/-- The matrix-vector unit of a core (R183 to R188): vector buffer, queues, the run of each bank and the accumulators by
64 × bank + entry; bytes of the vector load in progress. -/
structure Mv where
  buf : List (Nat × PByte) := []
  eq : Line := []
  sq : Line := []
  lostBytes : Bool := false
  runs : List (Nat × MvRun) := []
  accs : List (Nat × Acc) := []
  loadTpl : Nat := 0
  loaded : Nat := 0
  deriving DecidableEq, Repr

/-- What a unit of a core does later: the effects of pipelined operations, by the SCNT they fall in. -/
inductive CoreEv where
  /-- a vault read reaches its destination unit (R197): unit code, scratch offset of the line, data -/
  | vault (unit : Nat) (line : Int) (data : Line)
  /-- the vector unit writes a register (R141) -/
  | vreg (r : Nat) (data : List (Nat × PByte))
  /-- a compare completes (R144): `none` is a poisoned flag -/
  | cmp (flag : Option Bool)
  /-- bytes of lines reach scratch: offset, data and the bytes written -/
  | lines (ls : List (Int × Line × List Nat))
  /-- the sums of an output row leave the deskew buffers (R163) -/
  | arow (r : ARow)
  /-- VTKINS merges its candidates into a list of `k` (R141, R146) -/
  | topkIns (k : Nat) (cands : List (Nat × Nat)) (pois : Bool)
  /-- VTKOUT empties the list -/
  | topkOut
  /-- a fetched beat reaches the fetch queue (R78, R197) -/
  | fetch (ws : List (Nat × Option (BitVec 128)))
  deriving DecidableEq, Repr

/-- A mesh line at a core port, in an inject or eject buffer or a queue: data with poison, and the null mark (R76). -/
structure MLine where
  data : Line
  null : Bool := false
  deriving DecidableEq, Repr

/-- A core (chapter 03), without its vault and its registers. -/
structure Core where
  /-- P0 to P15 as bits; bit 0 is not used (R75) -/
  pred : Nat := 0
  /-- compare flag; `none` is poisoned (R144) -/
  cmpFlag : Option Bool := some false
  /-- next word of the block, counted from the block's first -/
  widx : Nat := 0
  /-- the current word, its remaining cycles and whether it acts (R75); an empty word when the core has none -/
  cur : Option (BitVec 128) := none
  left : Nat := 0
  first : Bool := false
  acts : Bool := true
  /-- fetch queue: word-area index, and the word or `none` where it is poisoned (R82) -/
  fq : List (Nat × Option (BitVec 128)) := []
  fptr : Nat := 0
  /-- resident area of the loop buffer, by word -/
  res : List (Nat × BitVec 128) := []
  /-- resident words that could not be read when they were loaded (R82) -/
  resBad : List Nat := []
  /-- place of the head of the fetch queue among its 1,024 words (R77, R81) -/
  fqHead : Nat := 0
  /-- errors standing in the loop buffer: code word, symbol, error (R81) -/
  lberr : List (Nat × Nat × Nat) := []
  /-- template tables, byte by byte, at their offsets from 0x00_9000 of the segment (R73) -/
  tpl : List (Nat × Byte) := []
  /-- accesses since the return to base of each address generator, by 16 × unit + index -/
  agk : List (Nat × Nat) := []
  vreg : List (Nat × Line) := []
  /-- the top-k list (R146): value code and index, and whether a poisoned candidate was merged -/
  topk : List (Nat × Nat) := []
  topkPois : Bool := false
  evts : List (Nat × CoreEv) := []
  arr : Arr := {}
  mv : Mv := {}
  /-- inject buffer of 4 lines, eject buffer of 64 (R376, R377) -/
  inj : List MLine := []
  ej : List MLine := []
  /-- mismatches in this step (R151) -/
  stepHits : Nat := 0
  /-- results are poisoned until the next step boundary (R578) -/
  stepPois : Bool := false
  /-- words ran out or were cut in this block (R67) -/
  ranOut : Bool := false
  deriving DecidableEq, Repr

/-! ### The vault channel (chapter 05) -/

/-- A bank of a vault channel: its open row, and the SCNT of the latest access that closed it, of its latest refresh slot
and of its latest scrub slot (R198). -/
structure Bank where
  row : Option Nat := none
  closed : Option Nat := none
  ref : Option Nat := none
  scrub : Option Nat := none
  deriving DecidableEq, Repr

/-- A merge-buffer entry (R206): word index, bytes written so far, poison, SCNT of allocation, whether the stream allocated
it, and the merged word once its read has returned. -/
structure MergeE where
  word : Nat
  data : List (Nat × Byte)
  pois : Bool
  at_ : Nat
  byStream : Bool := true
  readBack : Bool := false
  deriving DecidableEq, Repr

/-- A rewrite-queue entry (R212): word index and corrected data. -/
structure RwE where
  word : Nat
  data : Line
  deriving DecidableEq, Repr

/-- A vault or side channel's controller (chapters 05 and 08). -/
structure VCh where
  refSlots : Nat := 0
  scrSlots : Nat := 0
  /-- the round in progress refreshes its banks (R214), and it has been returned for a skipped slot (R210) -/
  round : Bool := false
  returned : Bool := false
  banks : List (Nat × Bank) := []
  /-- SCNT of the latest opening accesses and writes -/
  opens : List Nat := []
  writes : List Nat := []
  merge : List MergeE := []
  rwq : List RwE := []
  /-- patrol pointer of each bank, in accesses -/
  patrol : List (Nat × Nat) := []
  /-- activation counts of the 16 latest rows of each bank (R220) -/
  track : List (Nat × List (Nat × Nat)) := []
  victims : List (Nat × List Nat) := []
  /-- a victim found its list full -/
  victimOvf : Bool := false
  /-- words corrected in the running patrol sweep of each bank, and those rewritten since (R221) -/
  swept : List (Nat × List Nat) := []
  rewritten : List Nat := []
  /-- reads of the channel and the connections corrected in the latest 256 (R204) -/
  reads : Nat := 0
  conns : List (Nat × Nat) := []
  /-- band that takes effect at the next refresh interval boundary (R213) -/
  newBand : Nat := 0
  /-- accesses and refresh rounds since the latest evaluation of the thermal model (R483) -/
  acc : Nat := 0
  rounds : Nat := 0
  deriving DecidableEq, Repr

/-! ### The on-die network (chapter 10) -/

/-- A line on its way through the mesh of a half (R370 to R374). `dir` is the direction a multicast copy travels in. -/
structure Flight where
  half : Nat
  pos : Nat
  inPort : Nat
  phase : Nat
  born : Nat
  age : Nat := 0
  route : Nat
  data : MLine
  /-- 0 unicast, 1 tree root or row, 2 column -/
  mc : Nat := 0
  dir : Nat := 0
  /-- waits in the deskew stage of this exit port -/
  exit : Option Nat := none
  deriving DecidableEq, Repr
/-! ### Ports, queue pairs and sessions (chapter 11) -/

/-- A packet or message the device has sent on a queue pair and the host has not yet acknowledged: kinds 0x2 to 0x4 of R418,
0x20 an RDMA READ response, 0x21 a NAK whose status is its code (1 invalid request, 2 remote access error). -/
structure Msg where
  kind : Nat
  op : Nat := 0
  tag : Nat := 0
  status : Nat := 0
  done : Bool := false
  session : Nat := 0
  body : List Byte := []
  deriving DecidableEq, Repr

/-- A host line of a request (R297, R309): 64 bytes at most within one line. -/
structure HLine where
  write : Bool
  addr : Nat
  len : Nat := 64
  data : List Byte := []
  qp : Nat
  /-- the command or read request it belongs to, and its number in it -/
  req : Nat := 0
  idx : Nat := 0
  /-- the real cycle it arrived in (R415) -/
  since : Nat := 0
  /-- for a line that crossed the die link: module, direction and TAG of its request -/
  back : Option (Nat × Nat × Nat) := none
  deriving DecidableEq, Repr

/-- A host line in a mesh (R385): the half, the router and the input port where it stands, the router and the port where it leaves, and
whether it goes rows first. -/
structure MeshLine where
  half : Nat
  pos : Nat
  inPort : Nat
  dest : Nat
  exit : Nat
  rows : Bool := false
  line : HLine
  deriving DecidableEq, Repr

/-- A request whose lines are being served: MEM_READ (`op` 0x0012) or an RDMA READ (`op` 0x20): lines returned so far with
the status of each. -/
structure ReadReq where
  req : Nat
  op : Nat
  qp : Nat
  session : Nat
  tag : Nat
  addr : Nat
  len : Nat
  lines : Nat
  got : List (Nat × Line × Nat) := []
  deriving DecidableEq, Repr

/-- A queue pair, beside its ECP registers. -/
structure Qp where
  /-- nonce, session number and real cycle of a SESSION_OPEN whose proof is awaited (R428) -/
  nonce : Option (List Byte × Nat × Nat) := none
  /-- real cycles of the failed proofs of the latest second -/
  fails : List Nat := []
  lockedAt : Nat := 0
  rkey : Nat := 0
  mtu : Nat := 0
  ackTimeout : Nat := 0
  retryCount : Nat := 0
  rnrRetry : Nat := 0
  retries : Nat := 0
  /-- RNR NAKs in a row (R421) -/
  rnrs : Nat := 0
  sendq : List Msg := []
  /-- events lost since the previous EVENT message (R426) -/
  lost : Nat := 0
  /-- real cycle of the latest CNP -/
  cnpAt : Option Nat := none
  deriving DecidableEq, Repr

/-- A command in progress (R423): its group number, and what it carries until it completes. -/
structure Cmd where
  op : Nat
  qp : Nat
  session : Nat
  tag : Nat
  group : Nat
  /-- real cycle of its acceptance -/
  since : Nat := 0
  args : List Nat := []
  data : List Byte := []
  deriving DecidableEq, Repr

/-- An answer of connection management on QP1: REJ, no resources; REP for a queue pair with its R_Key in the private data; DREP. -/
inductive CmAnswer where
  | rej
  | rep (q rkey : Nat)
  | drep (q : Nat)
  deriving DecidableEq, Repr

/-- A port: host lines its receive buffer holds by priority while no host queue has room (R407). -/
structure Port where
  /-- what connection management answered last (R410, R420) -/
  cm : Option CmAnswer := none
  rx : List (Nat × HLine) := []
  /-- the own address it answered for last (R406): whether IPv6, and the address -/
  answered : Option (Bool × Nat) := none
  deriving DecidableEq, Repr

/-! ### The black box (chapter 15) -/

/-- A black-box entry before it has its sequence number (R547). -/
structure BbrEntry where
  type : Nat
  sev : Nat
  flags : Nat
  svc : Nat
  utime : Nat
  scnt : Nat
  payload : List Byte
  deriving DecidableEq, Repr

/-- One of the two flash devices: the place of the next entry, sectors that are skipped, erased sectors ahead, and the
entries held by place. -/
structure BbrDev where
  pos : Nat := 0
  bad : List Nat := []
  ahead : Nat := 2
  held : List (Nat × List Byte) := []
  deriving DecidableEq, Repr

/-- The black box: the queue, the entry being programmed (sequence number, bytes, second copy), losses not yet rolled up. -/
structure Bbr where
  next : Nat := 1
  queue : List BbrEntry := []
  cur : Option (Nat × List Byte × Bool) := none
  devA : BbrDev := {}
  devB : BbrDev := {}
  rollup : Nat := 0
  rollupSev : Nat := 0
  deriving DecidableEq, Repr

/-- The management port (R433 to R435): the owner key of the protected store, the selections, the last status, the latched
alert sources (bit 0 an event, bit 3 a refused KEY_SET or KEY_CLEAR) and discarded transfers. -/
structure Mgmt where
  key : Option (List Byte) := none
  bbrSel : Nat := 0
  regSel : Nat := 0
  status : Nat := 0
  alerts : Nat := 0
  discarded : Nat := 0
  /-- bytes of the latest reply -/
  reply : List Byte := []
  deriving DecidableEq, Repr

/-! ### Resets, bring-up, Molt, self-test (chapters 14 and 16) -/

/-- A Molt in progress (R510), or what HALF_RESET runs of it, or the Molt that follows an interrupting warm reset (R524). -/
structure Molt where
  half : Nat
  commit : Bool := false
  /-- HALF_RESET: steps 2, 3, 4 and 7 only -/
  resetOnly : Bool := false
  /-- run after a warm reset interrupted a Molt -/
  again : Bool := false
  start : Nat := 0
  /-- physical clusters of the half that carried a failed core at its start (R511) -/
  failedAt : List Nat := []
  /-- with COMMIT, the records that were to be written when it began (R519) -/
  records : List Nat := []
  deriving DecidableEq, Repr

/-- A logic BIST run (R531): the half and the physical clusters under test, those not run, and whose COMPLETION it sends. -/
structure Lbist where
  half : Nat
  under : List Nat
  notRun : List Nat
  qp : Nat
  tag : Nat
  deriving DecidableEq, Repr

/-- A fuse-record slot (R516): 128 data fuses and the valid fuses V0 to V2. -/
structure FuseSlot where
  data : Nat := 0
  v : Nat := 0
  deriving DecidableEq, Repr

/-- Reset inputs, lifecycle and the JTAG port. -/
structure Life where
  /-- VDD_AON is in range and the always-on domain runs -/
  aon : Bool := true
  /-- filtered levels of PWRGOOD, RESET_N and WARM_RESET_N -/
  pwrgood : Bool := true
  resetN : Bool := true
  warmN : Bool := true
  /-- the device drives THERMTRIP_N low -/
  trip : Bool := false
  /-- strap value sampled when VDD_AON came into range (R573) -/
  straps : Nat := 0
  /-- a warm reset runs -/
  warm : Bool := false
  /-- a root PLL lost lock since the last cold reset (R46) -/
  unlocked : Bool := false
  /-- halves whose divided clocks have stopped with their root PLL (R46) -/
  stopped : List Nat := []
  /-- input power failed (R473); only the hold-up serves the always-on domain -/
  powerFailed : Bool := false
  /-- real cycles in which bring-up and its current phase began -/
  bringStart : Nat := 0
  phaseStart : Nat := 0
  /-- failures counted in bring-up -/
  failures : Nat := 0
  molt : Option Molt := none
  lbist : Option Lbist := none
  /-- an interrupted Molt's half, to be finished after the warm reset (R524) or repaired at bring-up -/
  interrupted : List Nat := []
  /-- soft repairs known since cold reset, by half: bits [50:0] of fuse records, which name physical units (R510, R516) -/
  found : List (Nat × Nat) := []
  /-- physical vault channels that failed training, as 32 × cluster index + 4 × core + channel (R224) -/
  outs : List Nat := []
  /-- halves that have logged a known-answer failure since cold reset (R507) -/
  karSeen : List Nat := []
  /-- grants and revocations of the protected store: slots hold serial, features, NOT_AFTER -/
  grants : List (Nat × Nat × Nat × Nat) := []
  revoked : List Nat := []
  /-- seconds counted since the latest save of the service time -/
  svcSince : Nat := 0
  /-- fuse slots of each half, by 512 × half + slot -/
  slots : List (Nat × FuseSlot) := []
  /-- JTAG: the instruction register, the boundary register's cells as shifted in, and the bits that the latest scan shifted out -/
  jtagIr : Nat := 0x01
  jtagCells : Nat := 0
  jtagOut : Nat := 0
  deriving DecidableEq, Repr

/-! ### Weevil engines and KV pages (chapters 06 and 07) -/

/-- A segment descriptor (R240). -/
structure Seg where
  off : Nat
  slot : Nat
  head : Nat
  segidx : Nat
  npos : Nat
  prov : Nat
  flags : Nat
  kscale : Nat
  vscale : Nat
  npg : Nat
  pages : List Nat
  deriving DecidableEq, Repr

/-- One line access that a running descriptor still has to make (R283 to R287). -/
structure WAcc where
  /-- SCNT it is made in -/
  due : Nat
  write : Bool
  addr : Nat
  /-- line number within the descriptor: the slot of its buffer -/
  line : Nat
  /-- the row is closed at this access (R270) -/
  close : Bool := true
  /-- bytes of the line that a write changes, from its first on (R290) -/
  keep : Nat := 64
  /-- a line slot of a HOST_WINDOW -/
  window : Bool := false
  /-- the descriptor or page-list entry that KVP_ERRADDR names for a page operation's read (R268) -/
  book : Nat := 0
  deriving DecidableEq, Repr

/-- What a descriptor does at an offset of its own beside its line accesses (R284 to R296). -/
inductive WStep where
  /-- the lines that the index list gives -/
  | gatherPlan
  /-- the lines of the pages that the segment's list names: entries 0 to 95, and the others -/
  | stagePlan (late : Bool)
  /-- the segment descriptors have been read -/
  | segRead
  /-- the phase of R287 takes its page; repoints the entry and decrements the count -/
  | cowTake
  | cowEnd
  /-- the i-th page that the positions of an append open is taken; the positions are written -/
  | openPage (i : Nat)
  | putPlan
  /-- entry e is shared; the i-th drop -/
  | share (e : Nat)
  | drop (i : Nat)
  /-- the changed lines of the segment descriptor are to be written -/
  | segEnd
  /-- the tree is checked and walked; the copy blocks of COMMIT begin -/
  | treeWalk
  | commitPlan
  /-- TOPK_ROUTE has read its logits -/
  | route
  deriving DecidableEq, Repr

/-- The descriptor that occupies a channel. -/
structure WRun where
  idx : Nat
  op : Nat
  tag : Nat
  /-- SCNT it started in, RSV, and the last cycle of its occupancy once that is known (R275, R282) -/
  start : Nat
  rsv : Nat
  fin : Option Nat
  /-- the descriptor's bytes -/
  desc : List Byte := []
  /-- status so far, with the line it belongs to, and the result -/
  status : Nat := 0
  errLine : Option Nat := none
  result : Nat := 0
  /-- line of the first uncorrectable read: later destination lines are written poisoned (R299) -/
  failLine : Option Nat := none
  /-- an uncorrectable read halts the channel when the descriptor ends -/
  halts : Bool := false
  /-- a mismatch of the compare logic falls on the descriptor (R296) -/
  hit : Bool := false
  todo : List WAcc := []
  buf : List (Nat × Line) := []
  /-- what the descriptor still does, by SCNT -/
  acts : List (Nat × WStep) := []
  /-- the segment descriptor a page operation works on, and PAGE_SHARE's source -/
  seg : Option Seg := none
  src : Option Seg := none
  /-- the pages of a copy-on-write: old and new -/
  cow : Option (Nat × Nat) := none
  /-- the path of TREE_WALK -/
  path : List Nat := []
  /-- a page operation that changes nothing further (R247, R252) -/
  stop : Bool := false
  /-- its status record was refused in the last cycle (R118, R271) -/
  lost : Bool := false
  /-- a page operation's own latest vault accesses: channel number and SCNT -/
  own : List (Nat × Nat) := []
  deriving DecidableEq, Repr

/-- A post whose first descriptor has not started: first index, count, the SCNT that it is due in, and whether it was made while EN was 0,
which cancels it (R301). -/
structure WPost where
  first : Nat
  count : Nat
  due : Nat
  dead : Bool := false
  deriving DecidableEq, Repr

/-- What the read of a descriptor at its start brought: nothing where it was refused (R280). -/
structure WGot where
  line : Line
  refused : Bool := false
  uncorr : Bool := false
  deriving DecidableEq, Repr

/-- A DMA channel, beside its registers: the running descriptor, the descriptor that the latest cycle has read and that starts, the SCNT
from which the next one of a post may start, and the posts. -/
structure WCh where
  run : Option WRun := none
  got : Option WGot := none
  nextAt : Nat := 0
  posts : List WPost := []
  /-- the SCNT of the latest halt, plus one (R303) -/
  haltAt : Nat := 0
  /-- cancel record to write in the first cycle after the step boundary: first index, count (R302) -/
  cancel : Option (Nat × Nat) := none
  /-- commands that wait for the step boundary (R301): 1 ENABLE, 2 DISABLE; CLEAR -/
  pend : Nat := 0
  clr : Bool := false
  deriving DecidableEq, Repr

/-- A Weevil: its channels, the channels waiting for the page unit in order (R242), and the scratch lines of this cycle by core. -/
structure Wvl where
  chs : List (Nat × WCh) := []
  wait : List Nat := []
  /-- the SCNT in which the page unit becomes free -/
  puFree : Nat := 0
  /-- the boundary actions of the cluster's cores wait until the page unit is free (R250) -/
  kvLate : Bool := false
  /-- the scratch lines of real cycle `linesAt`, by core, and the cores whose EV_SCHED of R271 it has raised -/
  linesAt : Nat := 0
  lines : List (Nat × Nat) := []
  wline : List Nat := []
  deriving DecidableEq, Repr

/-- The call that an attention engine has begun (R260, R262): its last cycle, its record and segment descriptor as read at its start,
whether a byte of theirs that it uses was poisoned, and whether the licence had lapsed then (R263). -/
structure SaeCall where
  last : Nat
  job : List Byte
  desc : List Byte
  pois : Bool := false
  lapsed : Bool := false
  deriving DecidableEq, Repr

/-- The streaming attention engine of an attention core (R260): accesses of the current call by channel, and the lines they
brought by 256 × page + line. -/
structure Sae where
  /-- the record of the current call -/
  next : Nat := 0
  call : Option SaeCall := none
  walk : List (Nat × Nat) := []
  lines : List (Nat × Line) := []
  deriving DecidableEq, Repr


/-! ### Side stacks and Scarab compute (chapters 08 and 09) -/

/-- A memory-side reduction (R331 to R333): `deadline` is its line slot, `judged` says that the deadline has passed. -/
structure Red where
  aop : Nat
  fmt : Nat
  exp : Nat
  deadline : Nat
  judged : Bool := false
  wrote : Nat := 0
  lines : List Line
  cnts : List Nat
  deriving DecidableEq, Repr

/-- What a side channel does in a later line slot. -/
inductive SEv where
  /-- a read line reaches an egress queue (R310, R319) -/
  | egress (q : Nat) (l : MLine)
  /-- the write of an atomic access (R330): channel offset, line, and whether the access closes its row -/
  | atomic (off : Nat) (d : Line) (close : Bool)
  /-- a line reaches the broadcast buffer (R353) -/
  | bline (i : Nat) (d : Line)
  /-- a fill line reaches the side cache (R335) -/
  | fill (line : Nat) (d : Line)
  deriving DecidableEq, Repr

/-- A place in an entry list (R315, R316): segment offset of the current entry, entries left with it, slots of it used. -/
structure SCur where
  pos : Nat := 0
  rest : Nat := 0
  used : Nat := 0
  /-- the current block gives a list -/
  live : Bool := false
  /-- the early end of the list was reported -/
  ended : Bool := false
  deriving DecidableEq, Repr

/-- A lease (R346 to R360): first slot, length in frames, groups, job record, frames of its phases (0 where no phase runs), and
results by unit once the compute phase is over. -/
structure Lease where
  start : Nat
  lenf : Nat
  gmask : Nat
  job : List Byte
  /-- command-segment offset of the job record -/
  jrec : Nat
  runs : Bool
  fb : Nat
  fc : Nat
  results : List (Nat × List (Option Nat)) := []
  /-- mismatches (R362): unit and result -/
  hits : List (Nat × Nat) := []
  deriving DecidableEq, Repr

/-- A side channel, beside its controller `VCh` (R316 to R333, R346 to R361). -/
structure SChan where
  /-- next line slot -/
  next : Nat := 0
  cur : SCur := {}
  agk : List (Nat × Nat) := []
  evts : List (Nat × SEv) := []
  reds : List (Nat × Red) := []
  /-- latest slots of accesses by bank group, of reads, and of a refresh window; service slots since STREAM_START -/
  groups : List (Nat × Nat) := []
  lastRead : Option Nat := none
  lastRef : Option Nat := none
  /-- the REFWIN entry in progress idles -/
  refIdle : Bool := false
  svc : Nat := 0
  lease : Option Lease := none
  /-- groups and end slot of the leases that ended in the latest 56 slots -/
  pastLease : List (Nat × Nat) := []
  bbuf : List (Nat × Line) := []
  bvalid : List (Nat × Bool) := []
  /-- vector buffers, by 8,192 × unit + byte -/
  vbuf : List (Nat × PByte) := []
  /-- mismatches of its Scarab compute in this step (R363) -/
  stepHits : Nat := 0
  deriving DecidableEq, Repr

/-- A fill record in progress (R335): first slot, channel, lines left, channel line index, cache line index. -/
structure Fill where
  start : Nat
  ch : Nat
  count : Nat
  src : Nat
  line : Nat
  deriving DecidableEq, Repr

/-- A cache lane (R336). -/
structure CLane where
  cur : SCur := {}
  agk : List (Nat × Nat) := []
  /-- SCNT of its next entry slot -/
  next : Nat := 0
  deriving DecidableEq, Repr

/-- A side stack's controller: network queues, fills, cache lanes, and SCB_CTL.EN as the slots see it (R365). -/
structure Stk where
  ing : List (Nat × List MLine) := []
  egr : List (Nat × List MLine) := []
  fills : List Fill := []
  lanes : List (Nat × CLane) := []
  /-- band that takes effect at the next refresh interval boundary (R326) -/
  newBand : Nat := 0
  deriving DecidableEq, Repr

/-! ### The Ittaing link (chapter 10) -/

/-- A STREAM line in the link (R392): SCNT at which it reached its LINK exit, phase, module its ROUTE names, place among the
lines of that module and DUE, route and data; whether a late-launch request was raised for it. -/
structure ItlLine where
  tL : Nat
  phase : Nat
  mod : Nat
  pos : Nat
  route : Nat
  data : MLine
  late : Bool := false
  /-- the flit whose buffer at the receiver holds the line (R390) -/
  flit : Option Nat := none
  deriving DecidableEq, Repr

/-- A line of DMA or CONTROL in the link: the 64 bits of its descriptor (R389, R436) and its content; the module whose LINK port it leaves
and enters by; of a write's or read's line, how many bytes from the address on it concerns; whether a late-launch request was raised for it. -/
structure VLine where
  desc : Nat
  line : List (Option Byte)
  mod : Nat
  len : Nat := 64
  late : Bool := false
  deriving DecidableEq, Repr

/-- A DATA flit: its number, its lines (of STREAM, or of another virtual channel), the real cycle of its latest launch and replays in a row. -/
structure Flit where
  seq : Nat
  lines : List ItlLine
  at_ : Nat
  tries : Nat := 0
  vc : Nat := 0
  vls : List VLine := []
  deriving DecidableEq, Repr

/-- One direction of a module (R389 to R396). -/
structure ItlDir where
  /-- lines that wait for a launch -/
  q : List ItlLine := []
  /-- unacknowledged flits, oldest first, and the number of the next new flit -/
  replay : List Flit := []
  nextSeq : Nat := 0
  /-- number of the next flit to send again, and the real cycle from which the sender knows -/
  again : Option (Nat × Nat) := none
  /-- flits on the wire: real cycle of the last bit and number -/
  wire : List (Nat × Nat) := []
  /-- the receiver's next number; flits it took, with the real cycle, until the sender knows -/
  rx : Nat := 0
  took : List (Nat × Nat) := []
  /-- flits that arrived corrupt or behind a corrupt one and are not yet in: number, receiver SCNT, whether requested -/
  missing : List (Nat × Nat × Bool) := []
  /-- received lines that wait for their DUE -/
  waiting : List ItlLine := []
  /-- the latest lines received: module, SCNT of the LINK exit, phase, place (R395) -/
  seen : List (Nat × Nat × Nat × Nat) := []
  /-- IDLE flits checked, and the bit errors of the latest 2^20: lane and number of the flit -/
  idles : Nat := 0
  errs : List (Nat × Nat) := []
  /-- lane replaced by each spare in use -/
  spares : List (Nat × Nat) := []
  /-- lines of DMA and CONTROL that wait for a launch (R390, R417) -/
  vq : List VLine := []
  /-- flits of DMA that the receiver has buffered: whether each holds a credit, and its lines -/
  buf : List (Bool × List VLine) := []
  /-- end of the latest flit launched, in 1/125 of a CCLK cycle (R387) -/
  busy : Nat := 0
  /-- the next TAG; host lines sent across and not yet answered: TAG, line, status received; write headers received: TAG, address, queue pair -/
  tag : Nat := 0
  asked : List (Nat × HLine × Nat) := []
  opened : List (Nat × Nat × Nat) := []
  deriving DecidableEq, Repr

/-- A module beside its registers. -/
structure Itl where
  dirs : List (Nat × ItlDir) := []
  /-- the directions whose WIDTHCHK flit matched in CHECK -/
  chk : List Nat := []
  /-- proposed width recorded in PROPOSE -/
  prop : Nat := 0
  /-- a fast retrain runs: direction and lane -/
  fast : Option (Nat × Nat) := none
  /-- real cycle in which TRAIN began -/
  since : Nat := 0
  deriving DecidableEq, Repr

/-- A router's STACK port (R380): its place in the list. -/
structure SPort where
  pos : Nat := 0
  rest : Nat := 0
  used : Nat := 0
  live : Bool := false
  ended : Bool := false
  deriving DecidableEq, Repr

/-! ### The Cicada pair (chapter 12) -/

/-- A Cicada frame that the device has sent (R445). -/
structure Frame where
  type : Nat
  seq : Nat := 0
  step : Nat
  payload : List Byte
  deriving DecidableEq, Repr

/-- An input record (R455): the step, its entries by slot, and STR_HOSTCOND. -/
structure InRec where
  step : Nat
  entries : List (Nat × List Byte)
  cond : Nat
  deriving DecidableEq, Repr

/-- A body of PAIR_MODE (R439). -/
structure PairBody where
  mode : Nat
  role : Nat
  path : Nat
  divhalt : Bool
  relay : Nat
  uid : Nat
  jbuf : Nat
  jlen : Nat
  deriving DecidableEq, Repr

/-- What a JOURNAL standby has staged for the step in progress (R463): line records (address, data with poison), register
records (core, values), and frames of JLINE and JREG. -/
structure Stage where
  lines : List (Nat × Line) := []
  regs : List (Nat × List Nat) := []
  frames : Nat := 0
  bytes : Nat := 0
  deriving DecidableEq, Repr

/-- The pair engine, beside its registers. -/
structure Cic where
  pending : Option PairBody := none
  /-- real cycles in which the mode took effect, of the latest good heartbeat and of the latest one sent; misses since -/
  seekAt : Nat := 0
  hbAt : Nat := 0
  hbSent : Nat := 0
  misses : Nat := 0
  peerState : Nat := 0
  /-- the next frame answers a corrupt one with NAK (R448) -/
  nak : Bool := false
  /-- next SEQ to send and, once a frame has come, to receive; frames not acknowledged, frames that wait to be sent -/
  txSeq : Nat := 0
  rxSeq : Option Nat := none
  sent : List Frame := []
  outq : List Frame := []
  /-- entries of the record being received; complete records held; records written and polls made since the start -/
  part : List (Nat × List Byte) := []
  partStep : Option Nat := none
  recs : List InRec := []
  wrote : Nat := 0
  polls : Nat := 0
  /-- hashes: step, hash, poison; own ones due at a real cycle, and whether they have been compared -/
  due : List (Nat × Nat) := []
  own : List (Nat × Nat × Bool × Bool) := []
  peer : List (Nat × Nat × Bool) := []
  stage : Stage := {}
  /-- JOURNAL active: lines written in the step, KVP values at the latest boundary, lines of the base copy sent so far -/
  wlog : List Nat := []
  jframes : Nat := 0
  kvPrev : List (Nat × List Nat) := []
  copied : Option Nat := none
  copyDone : Bool := false
  deriving DecidableEq, Repr

/-! ### Power and cooling (chapter 13) -/

/-- The thermal model of an instance (R483, R485, R488, R489): nodes without their corrections and the corrections, in
millionths of a degree; for a cluster the logic node and L0 to L3, for a stack the base-die and DRAM nodes. -/
structure Therm where
  nodes : List Int := []
  cl : Int := 0
  cv : Int := 0
  /-- consecutive samples in which sensor A, and sensor B, was far from its neighbours and from the model -/
  farA : Nat := 0
  farB : Nat := 0
  /-- samples without conflict since CONFLICT was set -/
  calm : Nat := 0
  deriving DecidableEq, Repr

/-- Power delivery and cooling, beside their registers. -/
structure Pow where
  therm : List (Nat × Therm) := []
  /-- latest readings of sensors A and B in 0.01 °C, by physical cluster index, and by 132 + s for stack s -/
  snsr : List (Nat × Int × Int) := []
  /-- real cycle of the latest fresh coolant post -/
  coolAt : Option Nat := none
  /-- real cycle of the first of the latest fresh posts in a row whose flow was below 0.4 L/min (R495) -/
  lowAt : Option Nat := none
  /-- telemetry is stale (R491) -/
  stale : Bool := false
  /-- real cycle of the latest evaluation of the power-cap law (R493), and its p_cap in µW -/
  evalAt : Nat := 0
  pcap : Int := 1750000000
  /-- real cycle in which the phase of a cluster that enters or leaves Chrysalis ends (R480) -/
  phases : List (Nat × Nat) := []
  /-- real cycle since which a rail is out of range, and whether EV_RAIL was raised (R472) -/
  rails : List (Nat × Nat × Bool) := []
  /-- real cycle of the latest droop entry of a regulator, by 4 × cluster index + regulator (R479) -/
  droopBb : List (Nat × Nat) := []
  deriving DecidableEq, Repr

/-- The events of R541. -/
inductive Ev where
  | sched | streamTrap | stallLane | stallTimeout | pllUnlock | coreFail | residue | collision
  | vltLane | vltWeakrow | vltHot | vltMapout | sskPin | sskHot
  | kvReserve | kvTrunc | kvBalance | wvlHalt | licence | scbRefuse | scbFail
  | itlSpare | itlHalf | itlFence | itlClass | itlLate
  | ethLink | qpError | hostPoison | hostTimeout | authFail
  | peerLost | pairBroken | peerState | cicPort | diverge | pairSynced
  | rail | powerFail | odrFail | clusterDark | droop | sensorSuspect | sensorConflict | coolStale | thermSoft
  | powerCap | shutdown | karFail | moltIncomplete | fuseBad | fuseFull | licInstall | licLapse
  deriving DecidableEq, Repr

/-- An event as raised (R537 to R540): its SRC and the half that raised it. -/
structure Event where
  ev : Ev
  src : Nat
  half : Nat := 0
  /-- SCNT word and real cycle of the raise -/
  scnt : Nat := 0
  cc : Nat := 0
  /-- a stream was running -/
  run : Bool := false
  /-- the queue pair whose session receives it whatever its EVENT_CFG (R414, R415) -/
  qp : Option Nat := none
  deriving DecidableEq, Repr

/-- What the device set of the W1C bits of a register in an SCLK cycle (R22): the CCLK cycle of the latest such event, the bits, and,
for a first-error record, the first error of that SCLK cycle with the number of those after it (R535). -/
structure W1c where
  cc : Nat := 0
  bits : Nat := 0
  addr : Nat := 0
  stat : Nat := 0
  more : Nat := 0
  deriving DecidableEq, Repr

/-- The block. Sparse maps are lists with rising keys and no entry equal to its default. -/
structure State where
  /-- commands that wait, first in first out -/
  pending : List Instr := []
  /-- real CCLK cycles since cold reset (R40, R96) -/
  cc : Nat := 0
  /-- the model's own: free values used so far -/
  free : Nat := 0
  /-- the registers that do not hold their reset value, by device address (R16 to R22) -/
  regs : List (Nat × BitVec 64) := []
  /-- the bytes of vault, scratch, side stacks, mailboxes and table windows that are not 0, by device address (R12) -/
  mem : List Host.Cell := []
  /-- the syndromes of stored 32-byte words that are not valid, by word; poison is one of them (R199 to R203) -/
  syn : List (Nat × Nat) := []
  /-- poisoned 8-byte granules of scratch (R121) -/
  gpois : List (Nat × Bool) := []
  /-- the stream controllers (chapter 02) -/
  str : Stream := {}
  /-- the global stall (R95 to R103) -/
  stall : Stall := {}
  /-- logical cores (chapters 03 and 04) -/
  cores : List (Nat × Core) := []
  /-- controllers of vault and side channels, by the number of R557 -/
  vch : List (Nat × VCh) := []
  /-- lines in the meshes (R370 to R374) -/
  flights : List Flight := []
  /-- the collecting controller's queue: events of the present SCLK cycle that wait to be delivered (R537, R538); and the first-error
  records that the command in progress has written, none between commands -/
  raised : List Event := []
  errNow : List Nat := []
  /-- W1C bits that the device set in the latest SCLK cycles, by register address (R22) -/
  w1c : List (Nat × W1c) := []
  /-- queue pairs and ports (chapter 11) -/
  qps : List (Nat × Qp) := []
  ports : List (Nat × Port) := []
  /-- ECP commands in progress, and requests whose lines are being read; the number of the next request -/
  cmds : List Cmd := []
  rdreqs : List ReadReq := []
  nextReq : Nat := 0
  /-- the black box, the management port, resets and lifecycle -/
  bbr : Bbr := {}
  mgmt : Mgmt := {}
  life : Life := {}
  /-- host lines that wait at clusters and side stacks (R309, R415) -/
  hq : List (Nat × List HLine) := []
  /-- host lines in the meshes, each input's in their order (R385) -/
  mesh : List MeshLine := []
  /-- the input that an output served last, by 16 × router 66h + p + output (R385) -/
  meshTurn : List (Nat × Nat) := []
  /-- Weevils by cluster, attention engines by core (chapters 06 and 07) -/
  wvl : List (Nat × Wvl) := []
  sae : List (Nat × Sae) := []
  /-- the step in which a core's pool was last exhausted, plus one (R268) -/
  kvExh : List (Nat × Nat) := []
  /-- the KV_REFILL of a boundary whose actions have begun late in some cluster: its mask; the cores found empty so far (R250, R255) -/
  kvMask : Option (List Byte) := none
  kvEmpty : List Nat := []
  /-- side channels and side stacks (chapters 08 and 09) -/
  sch : List (Nat × SChan) := []
  stk : List (Nat × Stk) := []
  /-- Ittaing modules, STACK ports of the routers (chapter 10) -/
  itl : List (Nat × Itl) := []
  sports : List (Nat × SPort) := []
  /-- the pair engine (chapter 12) -/
  cic : Cic := {}
  /-- the attention licence lapsed in this run, and EV_LICENCE was raised (R263) -/
  saeLapse : Bool := false
  /-- refresh intervals counted since cold reset, per half (R214) -/
  refIvl : List (Nat × Nat) := []
  /-- power and cooling (chapter 13) -/
  pow : Pow := {}
  /-- device totals since cold reset that SVCTIME entries carry (R548): 0 vault and 1 side uncorrectable reads, 2 mismatches,
  3 collisions -/
  totals : List (Nat × Nat) := []
  /-- ranges of memory whose contents are undefined: first byte, end, and the free value they stand for -/
  undef : List (Nat × Nat × Nat) := []
  deriving DecidableEq, Repr

/-- Faults: there are none. The spec lets no command stop the block: a condition that is not met leaves it as it is, an error is reported
through status codes, records, events and poison (R534), and a value left open is a free value. -/
inductive Fault
  deriving DecidableEq, Repr

/-- Refusals. -/
inductive Refusal where
  /-- a command without a meaning; no arm of `exec` raises it (safe) -/
  | notModelled (mnemonic : String)
  deriving DecidableEq, Repr

/-- Right after cold reset and before bring-up begins: every register at the value that the spec gives it, or at the one that the
assumption log names; memory lists nothing; no command waits. -/
def State.reset : State := {}

end Sys2Proof.Machine
end

