-- ==== Sys2Proof/Machine/Ops.lean ====
section
/-!
DEFINITION. The named operations every meaning is built from: sparse maps, registers and their fields, free values,
events, first-error records, saturating counters, stall requests and the bytes of memory.
-/
namespace Sys2Proof.Machine

/-! ### Sparse maps in canonical form -/

/-- The value at a key: the default where the key is not listed. -/
def smGet {α : Type} (d : α) : List (Nat × α) → Nat → α
  | [], _ => d
  | (k, v) :: m, x => if x = k then v else smGet d m x

/-- Remove a key. -/
def smDel {α : Type} : List (Nat × α) → Nat → List (Nat × α)
  | [], _ => []
  | (k, v) :: m, x => if x = k then smDel m x else (k, v) :: smDel m x

/-- Insert or replace a key of a rising list. -/
def smIns {α : Type} : List (Nat × α) → Nat → α → List (Nat × α)
  | [], x, a => [(x, a)]
  | (k, v) :: m, x, a => if x = k then (k, a) :: m else if x < k then (x, a) :: (k, v) :: m else (k, v) :: smIns m x a

/-- Write a key: writing the default removes the entry, so that equal maps are equal lists. -/
def smPut {α : Type} [DecidableEq α] (d : α) (m : List (Nat × α)) (x : Nat) (a : α) : List (Nat × α) :=
  if a = d then smDel m x else smIns m x a

/-- The canonical form: keys strictly rising from `lo`, no entry equal to the default. -/
def smWf {α : Type} [DecidableEq α] (d : α) : Nat → List (Nat × α) → Bool
  | _, [] => true
  | lo, (k, v) :: m => decide (lo ≤ k) && decide (v ≠ d) && smWf d (k + 1) m

/-- Memory in its canonical form: addresses strictly rising, and no byte listed that an unlisted address reads as (0). -/
def Memory.wf (m : List Host.Cell) : Bool := smWf 0 0 m

/-- Write several keys. -/
def smPuts {α : Type} [DecidableEq α] (d : α) (m : List (Nat × α)) (xs : List (Nat × α)) : List (Nat × α) :=
  xs.foldl (fun m p => smPut d m p.1 p.2) m

/-! ### Registers -/

/-- R16, R17: the device address of register `r`, instance `i`, index `k`. -/
def Reg.addr (r : Reg) (i k : Nat) : Nat :=
  0x7F0000000000 + r.info.blk * 0x10000000 + r.info.off + (if r.info.glob then 0 else 0x1000000 + i * 0x10000)
    + k * r.info.stride

/-- The stored value of a register: its reset value where nothing else is stored. -/
def State.rget (s : State) (r : Reg) (i : Nat := 0) (k : Nat := 0) : Nat :=
  (smGet (BitVec.ofNat 64 r.info.reset) s.regs (r.addr i k)).toNat

/-- Store a register. -/
def State.rset (s : State) (r : Reg) (i k v : Nat) : State :=
  { s with regs := smPut (BitVec.ofNat 64 r.info.reset) s.regs (r.addr i k) (BitVec.ofNat 64 v) }

/-- The value of a field. -/
def State.fget (s : State) (f : Fld) (i : Nat := 0) (k : Nat := 0) : Nat := bits (s.rget f.reg i k) f.hi f.lo

/-- Store a field, the register's other bits unchanged. -/
def State.fset (s : State) (f : Fld) (i k v : Nat) : State :=
  s.rset f.reg i k (setBits (s.rget f.reg i k) f.hi f.lo v)

/-- A field of one bit. -/
def State.flag (s : State) (f : Fld) (i : Nat := 0) (k : Nat := 0) : Bool := s.fget f i k = 1

/-- Add to a counter field, which saturates at all ones. -/
def State.bump (s : State) (f : Fld) (i k n : Nat) : State :=
  if n = 0 then s else s.fset f i k (min (s.fget f i k + n) (2 ^ (f.hi - f.lo + 1) - 1))

/-- Every instance and index of a register back to its reset value. -/
def State.rclear (s : State) (r : Reg) : State :=
  let n := r.info
  let a := r.addr 0 0
  let inst := if n.glob then 1 else Reg.instances n.blk
  let hit (x : Nat) : Bool := decide (a ≤ x) && decide ((x - a) / 0x10000 < inst) && decide ((x - a) % 0x10000 < n.cnt * n.stride) &&
    (x - a) % 0x10000 % n.stride = 0
  { s with regs := s.regs.filter fun p => !hit p.1 }

/-- Every index of a register of one instance back to its reset value. -/
def State.rwipe (s : State) (r : Reg) (i : Nat) : State :=
  let n := r.info
  let a := r.addr i 0
  let hit (x : Nat) : Bool := decide (a ≤ x) && decide (x < a + n.cnt * n.stride) && (x - a) % n.stride = 0
  { s with regs := s.regs.filter fun p => !hit p.1 }

/-- Count in a device total (R548), which saturates at 32 bits. -/
def State.total (s : State) (k : Nat) : State :=
  { s with totals := smPut 0 s.totals k (min (smGet 0 s.totals k + 1) (2 ^ 32 - 1)) }

/-! ### Free values -/

/-- A bit pattern the spec leaves open, and the state with the counter advanced. -/
def State.fresh (s : State) : Nat × State := (Config.freeNat s.free, { s with free := s.free + 1 })

/-- Bytes as an outsider reads them: a poisoned byte has unspecified value bits (R159), so it is a free one. -/
def State.reveal (s : State) : Line → List Byte × State
  | [] => ([], s)
  | some b :: l => let p := s.reveal l; (b :: p.1, p.2)
  | none :: l => let p := { s with free := s.free + 1 }.reveal l; (BitVec.ofNat 8 (Config.freeNat s.free) :: p.1, p.2)

/-! ### Events (R537 to R541) -/

/-- How the black box takes an event (column BB of R541). -/
inductive BbMode where
  /-- by severity -/
  | sev
  /-- always -/
  | always
  /-- as an entry of another type, which the raiser writes -/
  | other
  deriving DecidableEq, Repr

/-- Code, severity and black-box column of each event (R541). -/
def Ev.info : Ev → Nat × Nat × BbMode
  | .sched => (0x0101, 3, .sev) | .streamTrap => (0x0102, 5, .always) | .stallLane => (0x0103, 4, .always)
  | .stallTimeout => (0x0104, 5, .always) | .pllUnlock => (0x0105, 6, .always) | .coreFail => (0x0201, 4, .always)
  | .residue => (0x0202, 3, .sev) | .collision => (0x0203, 3, .sev) | .vltLane => (0x0301, 4, .always)
  | .vltWeakrow => (0x0302, 3, .sev) | .vltHot => (0x0303, 4, .sev) | .vltMapout => (0x0304, 5, .always)
  | .sskPin => (0x0305, 4, .always) | .sskHot => (0x0306, 4, .sev) | .kvReserve => (0x0401, 3, .sev)
  | .kvTrunc => (0x0402, 3, .sev) | .kvBalance => (0x0403, 4, .sev) | .wvlHalt => (0x0404, 4, .sev)
  | .licence => (0x0405, 4, .sev) | .scbRefuse => (0x0501, 3, .sev) | .scbFail => (0x0502, 4, .always)
  | .itlSpare => (0x0601, 3, .always) | .itlHalf => (0x0602, 4, .always) | .itlFence => (0x0603, 4, .always)
  | .itlClass => (0x0604, 4, .always) | .itlLate => (0x0605, 4, .sev) | .ethLink => (0x0701, 3, .sev)
  | .qpError => (0x0702, 2, .sev) | .hostPoison => (0x0703, 2, .sev) | .hostTimeout => (0x0704, 2, .sev)
  | .authFail => (0x0705, 3, .sev) | .peerLost => (0x0801, 4, .always) | .pairBroken => (0x0802, 4, .always)
  | .peerState => (0x0803, 2, .sev) | .cicPort => (0x0804, 3, .sev) | .diverge => (0x0805, 4, .always)
  | .pairSynced => (0x0806, 2, .sev) | .rail => (0x0901, 4, .always) | .powerFail => (0x0902, 6, .other)
  | .odrFail => (0x0903, 4, .always) | .clusterDark => (0x0904, 5, .always) | .droop => (0x0905, 3, .other)
  | .sensorSuspect => (0x0906, 3, .always) | .sensorConflict => (0x0907, 4, .sev) | .coolStale => (0x0908, 4, .sev)
  | .thermSoft => (0x0909, 3, .sev) | .powerCap => (0x090A, 2, .sev) | .shutdown => (0x090B, 6, .other)
  | .karFail => (0x0A01, 4, .always) | .moltIncomplete => (0x0A02, 4, .always) | .fuseBad => (0x0A03, 4, .always)
  | .fuseFull => (0x0A04, 4, .always) | .licInstall => (0x0A05, 2, .other) | .licLapse => (0x0A06, 4, .other)

/-- Whether the stream is RUNNING or STALLED. -/
def State.running (s : State) : Bool := s.str.st = .running || s.str.st = .stalled

/-- SRC in UNIT form (R540). -/
def srcUnit (unit sub cause value : Nat) : Nat :=
  unit % 2 ^ 16 + sub % 2 ^ 8 * 2 ^ 16 + cause % 2 ^ 8 * 2 ^ 24 + value % 2 ^ 32 * 2 ^ 32

/-- SRC in ADDR form (R540). -/
def srcAddr (addr status : Nat) : Nat := addr % 2 ^ 48 + status % 2 ^ 16 * 2 ^ 48

/-- Raise an event: it waits until its SCLK cycle is over, when the events of the cycle are ordered by code and SRC (R538) and
delivered. -/
def State.raise (s : State) (e : Ev) (unit : Nat := 0) (sub : Nat := 0) (cause : Nat := 0) (value : Nat := 0)
    (half : Nat := 0) : State :=
  { s with raised := s.raised ++ [{ ev := e, src := srcUnit unit sub cause value, half := half, scnt := s.str.scnt.toNat, cc := s.cc, run := s.running }] }

/-- Raise an event whose SRC is an address, in the half of the port of queue pair `qp`; it goes to that session whatever its EVENT_CFG. -/
def State.raiseAddr (s : State) (e : Ev) (addr status qp : Nat) : State :=
  let half := s.fget F.ECP_QPSTAT_PORT qp / 4
  { s with raised := s.raised ++ [{ ev := e, src := srcAddr addr status, half := half, scnt := s.str.scnt.toNat, cc := s.cc, run := s.running, qp := some qp }] }

/-- SCNT[31:0], the VALUE of several events. -/
def State.scnt32 (s : State) : Nat := s.str.scnt.toNat % 2 ^ 32

/-! ### Halves, clusters and cores -/

/-- R27: the half of a logical core. -/
def halfOfCore (n : Nat) : Nat := n / 512

/-- R37: the half that owns a side stack. -/
def halfOfStack (k : Nat) : Nat := if k = 0 ∨ k = 1 ∨ k = 4 ∨ k = 5 then 0 else 1

/-- The half of an instance of a block of R17: SSK and SCB count side stacks, WVL logical clusters, NOC halves, the others logical
cores. -/
def halfOfInst (blk inst : Nat) : Nat := match blk with
  | 12 | 13 => halfOfStack inst
  | 15 => inst / 64
  | 16 => inst
  | _ => halfOfCore inst

/-- EV_SCHED: instance, block number of R17, cause (R541). -/
def State.sched (s : State) (inst blk cause : Nat) : State := s.raise .sched inst blk cause s.scnt32 (halfOfInst blk inst)

/-! ### Status codes (R542) -/

namespace ST
abbrev OK := 0x0000
abbrev STATE := 0x0001
abbrev BUSY := 0x0002
abbrev MSG := 0x0003
abbrev DESC := 0x0004
abbrev UNALIGNED := 0x0005
abbrev LOCKED := 0x0006
abbrev RESET := 0x0007
abbrev TIMEOUT := 0x0008
abbrev CLOCK := 0x0009
abbrev VOLTAGE := 0x000A
abbrev AUTH := 0x0101
abbrev AUTHLOCK := 0x0102
abbrev NOKEY := 0x0103
abbrev PRESENCE := 0x0104
abbrev LICENCE := 0x0105
abbrev LICFULL := 0x0106
abbrev IMAGE := 0x0201
abbrev LINKCLASS := 0x0202
abbrev CHMAP := 0x0203
abbrev BBR_PENDING := 0x0204
abbrev ABSENT := 0x0301
abbrev UNCORR := 0x0302
abbrev BANKCONF := 0x0303
abbrev MERGEFULL := 0x0304
abbrev THERMAL := 0x0305
abbrev PROT := 0x0306
abbrev LEASED := 0x0307
abbrev DISABLED := 0x0308
abbrev REDLATE := 0x0309
abbrev REDINC := 0x030A
abbrev RSV := 0x0401
abbrev BOUND := 0x0402
abbrev CANCELLED := 0x0403
abbrev TRUNC := 0x0404
abbrev SEGFULL := 0x0405
abbrev KV_SLOT := 0x0406
abbrev REFCNT := 0x0407
abbrev TREE := 0x0408
abbrev KV_EMPTY := 0x0409
abbrev PAIR_NOPEER := 0x0501
abbrev PAIR_WAIT := 0x0502
abbrev FUSEFULL := 0x0503
end ST

/-! ### First-error records (R535) -/

/-- What the device set of a register's W1C bits in the current SCLK cycle, which is four CCLK cycles long (R22). -/
def State.w1cNow (s : State) (key : Nat) : W1c :=
  let x := smGet {} s.w1c key
  if x.cc / 4 = s.cc / 4 then x else {}

/-- Keep such an event; those of earlier SCLK cycles are forgotten. -/
def State.w1cPut (s : State) (key : Nat) (x : W1c) : State :=
  { s with w1c := smPut {} (s.w1c.filter fun p => decide (p.2.cc / 4 = s.cc / 4)) key { x with cc := s.cc } }

/-- The device sets W1C bits. -/
def State.w1cMark (s : State) (r : Reg) (i k b : Nat) : State :=
  let x := s.w1cNow (r.addr i k)
  s.w1cPut (r.addr i k) { x with bits := x.bits ||| b }

/-- An error reaches a first-error record in this SCLK cycle: of one CCLK cycle the lowest address counts as the first. -/
def State.errLatch (s : State) (key addr stat : Nat) : State :=
  let x := s.w1cNow key
  s.w1cPut key (
    if x.bits = 0 then { bits := 1, addr := addr, stat := stat }
    else if x.cc = s.cc ∧ addr < x.addr then { x with addr := addr, stat := stat, more := x.more + 1 }
    else { x with more := x.more + 1 })

/-- Record an error in a block instance's first-error record: `ar`, `sr` and `cr` are its address, status and count
registers (`ar` is given the address), `stat` the status word without VALID. Among errors of one command, which fall in
one cycle, the lowest address is recorded and the others are counted. -/
def State.firstErr (s : State) (ar sr cr : Reg) (i addr stat : Nat) : State :=
  let addr := if ar = .ARR_ERRSCNT then addr else addr % 2 ^ 48
  let key := sr.addr i 0
  let s := s.errLatch key addr stat
  if s.rget sr i % 2 = 0 then
    let s := (s.rset ar i 0 addr).rset sr i 0 (stat + 1)
    { s with errNow := key :: s.errNow }
  else
    let s := s.rset cr i 0 (min (s.rget cr i + 1) (2 ^ 64 - 1))
    if s.errNow.contains key ∧ addr < s.rget ar i then (s.rset ar i 0 addr).rset sr i 0 (stat + 1) else s

/-- STATUS in bits 31:16 and CAUSE in bits 15:8, as most blocks lay them out. -/
def errStat (status cause : Nat) : Nat := status * 2 ^ 16 + cause * 2 ^ 8

def State.errSYS (s : State) (addr status cause : Nat) : State :=
  s.firstErr .SYS_ERRADDR .SYS_ERRSTAT .SYS_ERRCNT 0 addr (errStat status cause)
def State.errSTR (s : State) (addr status cause : Nat) : State :=
  s.firstErr .STR_ERRADDR .STR_ERRSTAT .STR_ERRCNT 0 addr (errStat status cause)
def State.errCOR (s : State) (core addr status cause : Nat) : State :=
  s.firstErr .COR_ERRADDR .COR_ERRSTAT .COR_ERRCNT core addr (errStat status cause)
def State.errVLT (s : State) (core addr status cause : Nat) : State :=
  s.firstErr .VLT_ERRADDR .VLT_ERRSTAT .VLT_ERRCNT core addr (errStat status cause)
def State.errKVP (s : State) (core addr status cause : Nat) : State :=
  s.firstErr .KVP_ERRADDR .KVP_ERRSTAT .KVP_ERRCNT core addr (errStat status cause)
def State.errWVL (s : State) (cl ch addr status cause : Nat) : State :=
  s.firstErr .WVL_ERRADDR .WVL_ERRSTAT .WVL_ERRCNT cl addr (status * 2 ^ 16 + cause * 2 ^ 11 + ch * 2 ^ 8)
def State.errSSK (s : State) (stk ch addr status cause : Nat) : State :=
  s.firstErr .SSK_ERRADDR .SSK_ERRSTAT .SSK_ERRCNT stk addr (status * 2 ^ 16 + cause * 2 ^ 8 + ch * 2 ^ 3)
def State.errSCB (s : State) (stk ch addr status cause : Nat) : State :=
  s.firstErr .SCB_ERRADDR .SCB_ERRSTAT .SCB_ERRCNT stk addr (ch * 2 ^ 32 + status * 2 ^ 16 + cause * 2 ^ 8)
def State.errNOC (s : State) (half addr router port cause : Nat) : State :=
  s.firstErr .NOC_ERRADDR .NOC_ERRSTAT .NOC_ERRCNT half addr (router * 2 ^ 16 + port * 2 ^ 12 + cause * 2 ^ 4)
def State.errETH (s : State) (port addr status qp : Nat) : State :=
  s.firstErr .ETH_ERRADDR .ETH_ERRSTAT .ETH_ERRCNT port addr (status * 2 ^ 16 + qp * 2 ^ 8)
def State.errCIC (s : State) (addr status cause : Nat) : State :=
  s.firstErr .CIC_ERRADDR .CIC_ERRSTAT .CIC_ERRCNT 0 addr (errStat status cause)
/-- ARR keeps the SCNT in place of an address; UNIT is bit 1. -/
def State.errARR (s : State) (core unit cause : Nat) : State :=
  s.firstErr .ARR_ERRSCNT .ARR_ERRSTAT .ARR_ERRCNT core s.str.scnt.toNat (cause * 2 ^ 8 + unit * 2)

/-- A schedule error of the array or the matrix-vector unit: its record and EV_SCHED. -/
def State.schedARR (s : State) (core unit cause : Nat) : State := (s.errARR core unit cause).sched core 6 cause

/-- A schedule error of the stream (R536: address 0, status 0). -/
def State.schedSTR (s : State) (inst cause : Nat) : State := (s.errSTR 0 0 cause).sched inst 4 cause

/-- R40, R46: whether the divided clocks of a half run: cores, vault and side-stack controllers and network stand still without them. -/
def State.clocked (s : State) (h : Nat) : Bool := !s.life.stopped.contains h

/-- R27: the logical cluster of a logical core. -/
def clusterOf (n : Nat) : Nat := n / 8

/-- R37: whether a side stack carries Scarab units. -/
def isScarab (k : Nat) : Bool := k < 4

/-- The physical cluster index 66h + p that carries a logical cluster (R29), if it is mapped. -/
def State.physOf (s : State) (cl : Nat) : Option Nat :=
  let h := cl / 64
  let j := cl % 64
  if s.flag (F.MLT_MAP_VALID (j % 8)) h (j / 8) then some (66 * h + s.fget (F.MLT_MAP_PCLUS (j % 8)) h (j / 8)) else none

/-- The logical cluster that a physical cluster index carries, if any. -/
def State.logOf (s : State) (pi : Nat) : Option Nat :=
  let h := pi / 66
  ((List.range 64).find? fun j => s.physOf (64 * h + j) == some pi).map (64 * h + ·)

/- The states of a physical cluster in PWR_CLSTAT.STATE (chapter 13). -/
namespace CL
abbrev ON := 0
abbrev THREE := 1
abbrev DARK := 2
abbrev CHRYSALIS := 3
abbrev ENTERING := 4
abbrev LEAVING := 5
abbrev SPARE_OFF := 6
end CL

/-- The power state of the physical cluster of a logical cluster. -/
def State.clState (s : State) (cl : Nat) : Nat :=
  match s.physOf cl with
  | some pi => s.fget F.PWR_CLSTAT_STATE pi
  | none => CL.DARK

/-- Whether a core is marked failed (R32). -/
def State.failed (s : State) (n : Nat) : Bool := s.flag F.COR_STAT_FAILED n

/-- The core's sub-state. -/
def State.core (s : State) (n : Nat) : Core := smGet {} s.cores n
def State.setCore (s : State) (n : Nat) (c : Core) : State := { s with cores := smPut {} s.cores n c }

/-- The controller of vault channel c of core n. -/
def State.vc (s : State) (n c : Nat) : VCh := smGet {} s.vch (4 * n + c)
def State.setVc (s : State) (n c : Nat) (v : VCh) : State := { s with vch := smPut {} s.vch (4 * n + c) v }

/- Failure causes of COR_STAT.FCAUSE. -/
namespace FC
abbrev RESIDUE := 1
abbrev CONTROL := 2
abbrev DARK := 3
abbrev KAR := 4
end FC

/-- R34: mark a core failed and raise EV_CORE_FAIL; a core already failed keeps its cause. -/
def State.failCore (s : State) (n cause : Nat) : State :=
  if s.failed n then s
  else ((s.fset F.COR_STAT_FAILED n 0 1).fset F.COR_STAT_FCAUSE n 0 cause).raise .coreFail n 0 cause 0 (halfOfCore n)

/-! ### Memory (R12 to R15) -/

/-- Where a device address lies. -/
inductive Place where
  | vault (core ch off : Nat)
  | scratch (core off : Nat)
  | side (stk ch off : Nat)
  | reg (blk off : Nat)
  | nowhere
  deriving DecidableEq, Repr

/-- R12: the region of a device address. -/
def placeOf (a : Nat) : Place :=
  if a < 0x2000000000 then .vault (a / 0x8000000) (a / 0x2000000 % 4) (a % 0x2000000)
  else if 0x4000000000 ≤ a ∧ a < 0x4080000000 then
    .scratch ((a - 0x4000000000) / 0x200000) (a % 0x200000)
  else if 0x10000000000 ≤ a ∧ a < 0x18000000000 then
    .side ((a - 0x10000000000) / 0x1000000000) (a / 0x80000000 % 32) (a % 0x80000000)
  else if 0x7F0000000000 ≤ a ∧ a < 0x7F0160000000 then .reg ((a - 0x7F0000000000) / 0x10000000) (a % 0x10000000)
  else .nowhere

/-- Device address of a vault channel offset. -/
def vaultAddr (n c off : Nat) : Nat := n * 0x8000000 + c * 0x2000000 + off
/-- Device address of a scratch offset. -/
def scratchAddr (n off : Nat) : Nat := 0x4000000000 + n * 0x200000 + off
/-- Device address of a side-stack channel offset. -/
def sideAddr (k c off : Nat) : Nat := 0x10000000000 + k * 0x1000000000 + c * 0x80000000 + off
/-- Device address of an offset in a block window. -/
def blockAddr (b off : Nat) : Nat := 0x7F0000000000 + b * 0x10000000 + off

/-- The free value that an address holds where its contents are undefined (R227, R477). -/
def undefOf (us : List (Nat × Nat × Nat)) (a : Nat) : Option Nat :=
  (us.find? fun u => decide (u.1 ≤ a) && decide (a < u.2.1)).map fun u => u.2.2

/-- A range that is written is no longer undefined. -/
def undefCut (us : List (Nat × Nat × Nat)) (a b : Nat) : List (Nat × Nat × Nat) :=
  us.flatMap fun u => if b ≤ u.1 ∨ u.2.1 ≤ a then [u]
    else (if u.1 < a then [(u.1, a, u.2.2)] else []) ++ (if b < u.2.1 then [(b, u.2.1, u.2.2)] else [])

/-- A stored byte. -/
def State.byte (s : State) (a : Nat) : Byte :=
  match undefOf s.undef a with
  | some x => Config.undefByte x a
  | none => smGet 0 s.mem a
/-- The syndromes of a stored word: what an undefined word's check symbols say is open as well. -/
def State.synWord (s : State) (w : Nat) : Nat :=
  match undefOf s.undef (32 * w) with
  | some x => Config.undefSyn x w % 2 ^ 24
  | none => smGet 0 s.syn w
/-- Stored bytes. -/
def State.bytes (s : State) (a n : Nat) : List Byte := (List.range n).map fun i => s.byte (a + i)
/-- Store bytes. -/
def State.putBytes (s : State) (a : Nat) (bs : List Byte) : State :=
  { s with mem := smPuts 0 s.mem (bs.zipIdx.map fun p => (a + p.2, p.1)), undef := undefCut s.undef a (a + bs.length) }
/-- The contents of a range become undefined. -/
def State.loseRange (s : State) (a n : Nat) : State :=
  { s with undef := undefCut s.undef a (a + n) ++ [(a, a + n, s.free)], free := s.free + 1 }
/-- The number that stored bytes spell. -/
def State.nat (s : State) (a n : Nat) : Nat := leNat (s.bytes a n)

/- The states of a channel in VLT_CHMAP and SSK_CHMAP (R224). -/
namespace CH
abbrev ONLINE := 0
abbrev OFFLINE := 1
abbrev MAPPED_OUT := 2
abbrev RETRAINING := 3
end CH

def State.vltState (s : State) (n c : Nat) : Nat := s.fget (F.VLT_CHMAP_STATE c) n
def State.sskState (s : State) (k c : Nat) : Nat := s.fget (F.SSK_CHMAP_STATE (c % 8)) k (c / 8)

/-- Whether a range is present (R12, R13, R15, R32, R33, R225). -/
def State.present (s : State) : Place → Bool
  | .vault n c _ => s.vltState n c = CH.ONLINE &&
      (let p := s.clState (clusterOf n); p = CL.ON || p = CL.THREE)
  | .scratch n off => decide (off < 0x180000) && !s.failed n
  | .side k c off => s.sskState k c = CH.ONLINE && (!isScarab k || decide (off < 0x60000000))
  | .reg _ _ => true
  | .nowhere => false

/-! ### Stall requests (R95) -/

/-- Raise a stall request; a request of the same source and unit that is active already stays. -/
def State.request (s : State) (src half unit : Nat) : State :=
  if s.stall.reqs.any fun r => r.src = src ∧ r.half = half ∧ r.unit = unit ∧ r.released = none then s
  else { s with stall := { s.stall with reqs := s.stall.reqs ++
    [{ src := src, half := half, unit := unit, raised := s.cc }] } }

/-- A request for the step boundary that lies 24 bundles ahead, which takes effect at that boundary (R111, R457). -/
def State.requestStep (s : State) (src half unit : Nat) : State :=
  let n := s.stall.reqs.length
  let t := s.request src half unit
  { t with stall := { t.stall with reqs := t.stall.reqs.take n ++ (t.stall.reqs.drop n).map fun r => { r with step := true } } }

/-- R21: RWL fields are locked in RUNNING, STALLED and TRAPPED. -/
def State.locked (s : State) : Bool := s.str.st = .running || s.str.st = .stalled || s.str.st = .trapped

end Sys2Proof.Machine
end

