-- ==== Sys2Proof/Machine/Chan.lean ====
section
/-!
DEFINITION. A memory channel, vault or side: the Reed–Solomon code (R200 to R204, R321, R322), reads and writes of words
with the merge buffer and the rewrite queue (R205 to R209, R212, R323), map-out (R224, R225) and weak rows (R221).
The state keeps, for each word, the data bytes as stored and the syndromes of the stored word: the check bytes themselves
are what the data, the address and the syndromes give.
-/
namespace Sys2Proof.Machine

/-! ### The field GF(2^8) of R200 -/

/-- Multiplication by α: x^8 + x^4 + x^3 + x^2 + 1 is zero. -/
def gfX (a : Nat) : Nat := if a < 128 then 2 * a else (2 * a % 256) ^^^ 0x1D

/-- Product in GF(2^8). -/
def gfMul (a b : Nat) : Nat :=
  ((List.range 8).foldl (fun (p : Nat × Nat) i => (if (b >>> i) % 2 = 1 then p.1 ^^^ p.2 else p.1, gfX p.2)) (0, a)).1

/-- α^n. -/
def gfAlpha (n : Nat) : Nat := (List.range (n % 255)).foldl (fun a _ => gfX a) 1

/-- The inverse, a^254. -/
def gfInv (a : Nat) : Nat := let p := (List.range 6).foldl (fun p _ => gfMul (gfMul p p) a) a
  gfMul p p

/-- S_j of a syndrome word. -/
def synAt (syn j : Nat) : Nat := syn >>> (8 * j) % 256

/-- The syndromes that an error `e` at symbol `i` adds. -/
def synOf (nc i e : Nat) : Nat :=
  (List.range nc).foldl (fun a j => a + gfMul e (gfAlpha (i * j)) * 2 ^ (8 * j)) 0

/-- What the decoder finds (R202, R321). -/
inductive RsOut where
  | clean
  | poison
  /-- errors at symbols, with their values; `single` is the symbol outside the failed ones, if any -/
  | corr (errs : List (Nat × Nat)) (single : Option Nat)
  | uncorr
  deriving DecidableEq, Repr

/-- Remove an erasure at symbol `p` from a syndrome sequence. -/
def rsErase (p : Nat) : List Nat → List Nat
  | a :: b :: l => (b ^^^ gfMul (gfAlpha p) a) :: rsErase p (b :: l)
  | _ => []

/-- Whether a sequence is geometric with ratio α^i from a nonzero start. -/
def rsGeo (i : Nat) : List Nat → Bool
  | a :: b :: l => a ≠ 0 && b == gfMul a (gfAlpha i) && rsGeo i (b :: l)
  | [a] => a ≠ 0
  | [] => false

/-- The values of the errors at the erased symbols, given the syndromes of those errors alone. -/
def rsErasures : List Nat → List Nat → List (Nat × Nat)
  | [p], s0 :: _ => [(p, s0)]
  | [p, q], s0 :: s1 :: _ =>
    let vp := gfMul (s1 ^^^ gfMul (gfAlpha q) s0) (gfInv (gfAlpha p ^^^ gfAlpha q))
    [(p, vp), (q, s0 ^^^ vp)]
  | _, _ => []

/-- The decoder of R202 and R321: `nc` check bytes, syndromes, and the symbols decoded as erasures. -/
def rsDecode (nc syn : Nat) (er : List Nat) : RsOut :=
  let s := (List.range nc).map (synAt syn)
  if s.all (· = 0) then .clean
  else if syn = 2 ^ (8 * (nc - 1)) then .poison
  else
    let t := er.foldl (fun t p => rsErase p t) s
    if t.all (· = 0) then
      (if er = [] then .uncorr else .corr ((rsErasures er s).filter fun p => p.2 ≠ 0) none)
    else if 2 ≤ er.length then .uncorr
    else
      match (List.range (nc + 38)).find? fun i => !er.contains i && rsGeo i t with
      | none => .uncorr
      | some i =>
        if nc + 32 ≤ i then .uncorr
        else
          let e := er.foldl (fun e p => gfMul e (gfInv (gfAlpha i ^^^ gfAlpha p))) (t.headD 0)
          let s' := s.zipIdx.map fun p => p.1 ^^^ gfMul e (gfAlpha (i * p.2))
          .corr ((i, e) :: (rsErasures er s').filter fun p => p.2 ≠ 0) (some i)

/-! ### Channels -/

/-- A memory channel. -/
inductive Chan where
  | vault (core ch : Nat)
  | side (stk ch : Nat)
  deriving DecidableEq, Repr

/-- The channel's number j of R557, which keys its controller. -/
def Chan.num : Chan → Nat
  | .vault n c => 4 * n + c
  | .side k c => 4096 + 32 * k + c

/-- Device address of offset 0. -/
def Chan.base : Chan → Nat
  | .vault n c => vaultAddr n c 0
  | .side k c => sideAddr k c 0

/-- Check bytes of a word (R200, R307). -/
def Chan.nc : Chan → Nat
  | .vault _ _ => 3
  | .side _ _ => 4

/-- Merge-buffer entries (R206, R323). -/
def Chan.mergeCap : Chan → Nat
  | .vault _ _ => 16
  | .side _ _ => 32

/-- Banks (R192, R306). -/
def Chan.banks : Chan → Nat
  | .vault _ _ => 16
  | .side _ _ => 32

/-- Rows of a bank. -/
def Chan.rows : Chan → Nat
  | .vault _ _ => 1024
  | .side k _ => if isScarab k then 24576 else 32768

/-- Bank and row of a channel offset (R192, R306). -/
def Chan.bankOf : Chan → Nat → Nat
  | .vault _ _, x => x / 0x800 % 16
  | .side _ _, x => x / 0x800 % 32
def Chan.rowOf : Chan → Nat → Nat
  | .vault _ _, x => x / 0x8000
  | .side _ _, x => x / 0x10000

/-- The offset of column 0 of a row of a bank. -/
def Chan.rowOff : Chan → Nat → Nat → Nat
  | .vault _ _, b, r => b * 0x800 + r * 0x8000
  | .side _ _, b, r => b * 0x800 + r * 0x10000

def Chan.half : Chan → Nat
  | .vault n _ => halfOfCore n
  | .side k _ => halfOfStack k

/-- The channel of a place in memory. -/
def Place.chan : Place → Option (Chan × Nat)
  | .vault n c off => some (.vault n c, off)
  | .side k c off => some (.side k c, off)
  | _ => none

/-- The controller's state. -/
def State.chan (s : State) (c : Chan) : VCh := smGet {} s.vch c.num
def State.setChan (s : State) (c : Chan) (v : VCh) : State := { s with vch := smPut {} s.vch c.num v }
def State.modChan (s : State) (c : Chan) (f : VCh → VCh) : State := s.setChan c (f (s.chan c))

/-- R224: the map state. -/
def State.chState (s : State) : Chan → Nat
  | .vault n c => s.vltState n c
  | .side k c => s.sskState k c

/-- Whether the channel's range is present. -/
def State.chPresent (s : State) : Chan → Nat → Bool
  | .vault n c, x => s.present (.vault n c x)
  | .side k c, x => s.present (.side k c x)

/-- The refresh band in force: 0 to 2, 3 HOT (R213, R326). -/
def State.chBand (s : State) : Chan → Nat
  | .vault n c => s.fget (F.VLT_BAND_BAND c) n
  | .side k _ => if s.flag F.SSK_STAT_HOT k then 3 else s.fget F.SSK_BAND_BAND k

/-- Log an error of the channel: the causes 0x01 to 0x05 are the same numbers in VLT_ERRSTAT and SSK_ERRSTAT. -/
def State.chErr (s : State) (c : Chan) (off status cause : Nat) : State :=
  match c with
  | .vault n _ => s.errVLT n (c.base + off) status cause
  | .side k j => s.errSSK k j (c.base + off) status cause

/-- EV_SCHED of the channel's block. -/
def State.chSched (s : State) (c : Chan) (cause : Nat) : State :=
  match c with
  | .vault n _ => s.sched n 11 cause
  | .side k _ => s.sched k 12 cause

/-- Count a corrected read. -/
def State.chCorr (s : State) : Chan → State
  | .vault n c => s.bump (F.VLT_CORRCNT_COUNT c) n 0 1
  | .side k _ => s.bump F.SSK_CORRCNT_COUNT k 0 1

/-- Count an uncorrectable read. -/
def State.chUnc (s : State) : Chan → State
  | .vault n c => (s.bump (F.VLT_UNCCNT_COUNT c) n 0 1).total 0
  | .side k _ => (s.bump F.SSK_UNCCNT_COUNT k 0 1).total 1

/-- The two failed-connection (or pin) entries: valid, number. -/
def State.chLanes (s : State) : Chan → List Nat
  | .vault n c =>
    (if s.flag F.VLT_LANE_VA n c then [s.fget F.VLT_LANE_CONNA n c] else []) ++
    (if s.flag F.VLT_LANE_VB n c then [s.fget F.VLT_LANE_CONNB n c] else [])
  | .side k c =>
    (if s.flag F.SSK_PIN_VA k c then [s.fget F.SSK_PIN_PINA k c] else []) ++
    (if s.flag F.SSK_PIN_VB k c then [s.fget F.SSK_PIN_PINB k c] else [])

/-- The symbol a connection or pin carries (R193, R307). -/
def Chan.symOf : Chan → Nat → Nat
  | .vault _ _, j => j / 8
  | .side _ _, j => j / 2

/-- The connections or pins whose bits an error value flips. -/
def Chan.linesOf : Chan → Nat → Nat → List Nat
  | .vault _ _, sym, e => ((List.range 8).filter fun b => (e >>> b) % 2 = 1).map (sym * 8 + ·)
  | .side _ _, sym, e => ((List.range 2).filter fun b => (e >>> (4 * b)) % 16 ≠ 0).map (sym * 2 + ·)

/-- The symbols decoded as erasures: two failed connections in one symbol are one erasure (R204). -/
def State.erasures (s : State) (c : Chan) : List Nat := ((s.chLanes c).map c.symOf).eraseDups

/-- R224, R225: map a channel out with its cause; its queues are discarded. -/
def State.mapOut (s : State) (c : Chan) (cause : Nat) : State :=
  let s := match c with
    | .vault n j => ((s.fset (F.VLT_CHMAP_STATE j) n 0 CH.MAPPED_OUT).fset (F.VLT_CHMAP_MOCAUSE j) n 0 cause).raise
        .vltMapout n j cause 0 c.half
    | .side k j => ((s.fset (F.SSK_CHMAP_STATE (j % 8)) k (j / 8) CH.MAPPED_OUT).fset (F.SSK_CHMAP_MOCAUSE (j % 8)) k
        (j / 8) cause).raise .vltMapout (0x8000 + 32 * k + j) j cause 0 c.half
  s.modChan c fun v => { v with merge := [], rwq := [] }

/-- R204, R322: record a failed connection or pin; a third failed symbol maps the channel out. Of two recorded in one symbol the second
gives way to one in another symbol: that symbol's erasure needs its entry (assumption 152). `cause` is the map-out's: third failed symbol, or
training (R338). -/
def State.failLine (s : State) (c : Chan) (j : Nat) (cause : Nat := 2) : State :=
  let known := s.chLanes c
  let syms := (known.map c.symOf).eraseDups
  if known.contains j ∨ syms.contains (c.symOf j) ∧ 2 ≤ known.length then s
  else if 2 ≤ syms.length ∧ !syms.contains (c.symOf j) then s.mapOut c cause
  else
    match c with
    | .vault n ch =>
      let s := if s.flag F.VLT_LANE_VA n ch then (s.fset F.VLT_LANE_VB n ch 1).fset F.VLT_LANE_CONNB n ch j
        else (s.fset F.VLT_LANE_VA n ch 1).fset F.VLT_LANE_CONNA n ch j
      s.raise .vltLane n ch 0 j c.half
    | .side k ch =>
      let s := if s.flag F.SSK_PIN_VA k ch then (s.fset F.SSK_PIN_VB k ch 1).fset F.SSK_PIN_PINB k ch j
        else (s.fset F.SSK_PIN_VA k ch 1).fset F.SSK_PIN_PINA k ch j
      s.raise .sskPin k ch 0 j c.half

/-! ### Weak rows (R221, R223) -/

/-- The weak-row entries of a vault channel: index and register value. -/
def State.weakRows (s : State) (n c : Nat) : List (Nat × Nat) :=
  (List.range 16).map fun i => (i, s.rget .VLT_WEAK n (16 * c + i))

/-- Spare rows of a bank that no entry uses. -/
def State.freeSpares (s : State) (n c b : Nat) : List Nat :=
  let used := (s.weakRows n c).filterMap fun p =>
    let st := bits p.2 63 61
    if (st = 2 ∨ st = 3) ∧ bits p.2 23 20 = b then some (bits p.2 2 0) else none
  (List.range 8).filter fun k => !used.contains k

/-- R221, R223: a row turns out weak. A list that is full takes no further row (assumption 11). -/
def State.weakRow (s : State) (n c b r : Nat) : State :=
  let rows := s.weakRows n c
  if rows.any fun p => bits p.2 63 61 ≠ 0 ∧ bits p.2 23 20 = b ∧ bits p.2 19 10 = r then s
  else
    match rows.find? fun p => bits p.2 63 61 = 0 with
    | none => s.raise .vltWeakrow n c 0 (1024 * b + r) (halfOfCore n)
    | some (i, _) =>
      let pend := ((rows.filter fun p => bits p.2 63 61 = 1 ∧ bits p.2 23 20 = b).length)
      let none_ := decide ((s.freeSpares n c b).length ≤ pend)
      let s := s.rset .VLT_WEAK n (16 * c + i) ((if none_ then 4 else 1) * 2 ^ 61 + b * 2 ^ 20 + r * 2 ^ 10)
      let s := s.raise .vltWeakrow n c 0 (1024 * b + r) (halfOfCore n)
      if none_ then s.mapOut (.vault n c) 3 else s

/-- R221: a correction of a word, outside a failed connection's symbol, in the running patrol sweep of its bank. -/
def State.noteCorr (s : State) (c : Chan) (off : Nat) : State :=
  match c with
  | .side _ _ => s
  | .vault n ch =>
    let v := s.chan c
    let b := c.bankOf off
    let r := c.rowOf off
    let w := (c.base + off) / 32
    let seen := smGet [] v.swept b
    let seen' := if seen.contains w then seen else w :: seen
    let s := s.setChan c { v with swept := smPut [] v.swept b seen' }
    if v.rewritten.contains w ∨ 3 ≤ (seen'.filter fun x => c.rowOf (32 * x - c.base) = r).length then s.weakRow n ch b r else s

/-! ### Words -/

/-- What a read of a word met. -/
inductive RdSt where
  | ok | poison | uncorr | absent | bankconf
  deriving DecidableEq, Repr

/-- The bytes and the status a word decodes to, with the errors corrected; nothing is counted. -/
def State.decodeWord (s : State) (nc : Nat) (w : Nat) (er : List Nat) : Line × RsOut :=
  let raw := s.bytes (32 * w) 32
  match rsDecode nc (s.synWord w) er with
  | .clean => (raw.map some, .clean)
  | .corr errs sg =>
    ((raw.zipIdx.map fun p => some (errs.foldl (fun b (e : Nat × Nat) =>
      if e.1 = nc + p.2 then b ^^^ BitVec.ofNat 8 e.2 else b) p.1)), .corr errs sg)
  | o => (List.replicate 32 none, o)

/-- The merge entry of a word (R208). -/
def VCh.entry (v : VCh) (w : Nat) : Option MergeE := v.merge.find? fun e => e.word = w

/-- R208: the bytes of a word with its merge entry substituted. -/
def mergeOver (d : Line) (e : MergeE) : Line :=
  if e.pois ∨ d.any (·.isNone) then List.replicate 32 none
  else d.zipIdx.map fun p => match e.data.find? fun q => q.1 = p.2 with
    | some q => some q.2
    | none => p.1

/-- R212: whether a word is queued for rewriting; queue a corrected word; take a word out. -/
def VCh.queued (v : VCh) (w : Nat) : Bool := v.rwq.any fun e => e.word = w
def VCh.queueRw (v : VCh) (w : Nat) (d : Line) : VCh :=
  if v.queued w ∨ 64 ≤ v.rwq.length then v else { v with rwq := v.rwq ++ [{ word := w, data := d }] }
def VCh.unqueue (v : VCh) (w : Nat) : VCh := { v with rwq := v.rwq.filter fun e => e.word ≠ w }

/-- What the channel delivers for a word it holds as `d`: a merge entry's bytes stand in it (R208). -/
def VCh.merged (v : VCh) (w : Nat) (d : Line) : Line :=
  match v.entry w with
  | none => d
  | some e => mergeOver d e

/-- A corrected read (R204, R212, R321): counted, the word queued for rewriting, and the failing connections counted; a correction in a failed
connection's symbol (`sg` none) queues no rewrite, but counts against the symbol's other connections. -/
def State.corrected (s : State) (c : Chan) (off : Nat) (d : Line) (errs : List (Nat × Nat)) (sg : Option Nat) : State :=
  let s := s.chCorr c
  let lines := (errs.flatMap fun p => c.linesOf p.1 p.2).filter fun j => !(s.chLanes c).contains j
  let s := s.modChan c fun v =>
    { (if sg.isSome then v.queueRw ((c.base + off) / 32) d else v) with conns := lines.map (fun j => (v.reads, j)) ++ v.conns }
  let s := if sg.isSome then s.noteCorr c off else s
  lines.foldl (fun s j => if 8 ≤ ((s.chan c).conns.filter fun p => p.2 = j).length then s.failLine c j else s) s

/-- Read one word of a channel that is present, as R202 to R204, R208, R212 and R321 say: the data delivered, and what the
read met. -/
def State.readWord (s : State) (c : Chan) (off : Nat) : Line × RdSt × State :=
  let w := (c.base + off) / 32
  let er := s.erasures c
  let (d, o) := s.decodeWord c.nc w er
  match o with
  | .clean => ((s.chan c).merged w d, .ok, s)
  | .poison => ((s.chan c).merged w d, .poison, s)
  | .uncorr => ((s.chan c).merged w d, .uncorr, (s.chUnc c).chErr c off ST.UNCORR 2)
  | .corr errs sg => ((s.chan c).merged w d, .ok, s.corrected c off d errs sg)

/-- R204: a read of the channel; corrections in its latest 256 reads count against a connection. A read is one access (R219). -/
def State.countRead (s : State) (c : Chan) : State :=
  s.modChan c fun v => { v with reads := v.reads + 1, conns := v.conns.filter fun p => v.reads + 1 < p.1 + 256 }

/-- What reading `n` bytes from an offset on, both multiples of 64, does to a present channel besides delivering them (R202): words without an
error do nothing but count as read. -/
def State.scanWords (s : State) (c : Chan) (off n : Nat) : State :=
  let w0 := (c.base + off) / 32
  let r0 := (s.chan c).reads
  let at_ (s : State) (r : Nat) : State :=
    s.modChan c fun v => { v with reads := r, conns := v.conns.filter fun p => decide (r < p.1 + 256) }
  let s := ((List.range (n / 32)).filter fun i => s.synWord (w0 + i) ≠ 0).foldl (fun s i =>
    ((at_ s (r0 + i / 2 + 1)).readWord c (off + 32 * i)).2.2) s
  (at_ s (r0 + n / 64)).modChan c fun v => { v with acc := v.acc + n / 64 }

/-- A read of one 64-byte access of a channel: an absent access delivers poison and is logged (R14). -/
def State.readLine (s : State) (c : Chan) (off : Nat) : Line × RdSt × State :=
  if !s.chPresent c off then (List.replicate 64 none, .absent, s.chErr c off ST.ABSENT 3)
  else
    let s := (s.modChan c fun v => { v with acc := v.acc + 1 }).countRead c
    let (a, ra, s) := s.readWord c (off / 64 * 64)
    let (b, rb, s) := s.readWord c (off / 64 * 64 + 32)
    (a ++ b, (if ra = .uncorr ∨ rb = .uncorr then .uncorr else .ok), s)

/-- Store a whole word as it goes into the array: a poisoned byte makes the word poison (R155, R203). -/
def State.storeWord (s : State) (nc w : Nat) (d : Line) : State :=
  let pois := d.any (·.isNone)
  let s := s.putBytes (32 * w) (d.map fun b => b.getD 0)
  { s with syn := smPut 0 s.syn w (if pois then 2 ^ (8 * (nc - 1)) else 0) }

/-- Write a whole word of a channel: its merge entry is discarded (R208) and its rewrite entry removed (R212). -/
def State.writeWord (s : State) (c : Chan) (off : Nat) (d : Line) : State :=
  let w := (c.base + off) / 32
  let s := s.storeWord c.nc w d
  s.modChan c fun v => { v.unqueue w with merge := v.merge.filter fun e => e.word ≠ w }

/-- A write of some bytes of a word: given as byte number and value (R205 to R209). A HOT channel refuses it (R218). -/
def State.writePart (s : State) (c : Chan) (off : Nat) (d : List (Nat × PByte)) : State :=
  let w := (c.base + off) / 32
  if d = [] then s
  else if d.length = 32 then s.writeWord c off ((List.range 32).map fun i => ((d.find? fun p => p.1 = i).map (·.2)).getD none)
  else
    let v := s.chan c
    let pois := d.any fun p => p.2.isNone
    let vals := d.map fun p => (p.1, p.2.getD 0)
    let s := s.setChan c (v.unqueue w)
    match v.entry w with
    | some _ => s.modChan c fun v => { v with merge := v.merge.map fun e => if e.word = w then
        { e with data := vals.foldl (fun m p => (p.1, p.2) :: m.filter (·.1 ≠ p.1)) e.data, pois := e.pois || pois } else e }
    | none =>
      if v.merge.length < c.mergeCap then
        s.modChan c fun v => { v with merge := v.merge ++
          [{ word := w, data := vals, pois := pois, at_ := s.str.scnt.toNat, byStream := s.running }] }
      else (s.chErr c off ST.MERGEFULL 4).chSched c 4

/-- A write of up to 64 bytes at a 64-byte aligned access, under byte enables: `none` of the mask list is a byte left
unwritten. Absent: dropped and logged (R14). HOT: dropped with ST_THERMAL and logged (R218, R328). -/
def State.writeLine (s : State) (c : Chan) (off : Nat) (d : Line) (en : Nat → Bool) : State :=
  let base := off / 64 * 64
  if !s.chPresent c off then s.chErr c off ST.ABSENT 3
  else if s.chBand c = 3 then s.chErr c off ST.THERMAL 5
  else
    let s := s.modChan c fun v => { v with acc := v.acc + 1 }
    let part (k : Nat) : List (Nat × PByte) := (List.range 32).filterMap fun i =>
      if en (32 * k + i) then some (i, (d[32 * k + i]?).getD none) else none
    (s.writePart c base (part 0)).writePart c (base + 32) (part 1)

/-! ### Row activations (R220) -/

/-- Count an activation of a row; at 2,048 its neighbours become victims. -/
def State.activate (s : State) (c : Chan) (b r : Nat) : State :=
  let v := s.chan c
  let t := smGet [] v.track b
  let n := ((t.find? fun p => p.1 = r).map (·.2)).getD 0 + 1
  let rest := (t.filter fun p => p.1 ≠ r).take 15
  if n < 2048 then s.setChan c { v with track := smPut [] v.track b ((r, n) :: rest) }
  else
    let v := { v with track := smPut [] v.track b ((r, 0) :: rest) }
    let vs := (if 0 < r then [r - 1] else []) ++ (if r + 1 < c.rows then [r + 1] else [])
    let v := vs.foldl (fun v x =>
      let l := smGet [] v.victims b
      if l.contains x then v
      else if l.length < 8 then { v with victims := smPut [] v.victims b (l ++ [x]) }
      else { v with victimOvf := true }) v
    s.setChan c v

/-- The row of an offset is opened. -/
def State.openRow (s : State) (c : Chan) (off : Nat) : State := s.activate c (c.bankOf off) (c.rowOf off)

/-- R207: the read of a merge entry's word: as any read, it counts a correction and logs an uncorrectable word. -/
def State.mergeRead (s : State) (c : Chan) (e : MergeE) : State :=
  (((s.openRow c (32 * e.word - c.base)).countRead c).readWord c (32 * e.word - c.base)).2.2

/-- R207, R228: complete a merge entry: the word read (corrected, or poison where it is uncorrectable, which is logged), the
entry's bytes over it, the whole written, the entry freed. -/
def State.completeMerge (s : State) (c : Chan) (e : MergeE) : State :=
  let off := 32 * e.word - c.base
  let full := e.data.length = 32
  let d := (s.decodeWord c.nc e.word (s.erasures c)).1
  let s := if full ∨ e.readBack then s else s.mergeRead c e
  let base : Line := if full then List.replicate 32 (some 0) else d
  let s := (s.openRow c off).modChan c fun v => { v with acc := v.acc + 1 }
  s.writeWord c off (mergeOver base e)

/-- Rewrite a queued word with its corrected data (R212). -/
def State.rewriteWord (s : State) (c : Chan) (e : RwE) : State :=
  let s := (s.openRow c (32 * e.word - c.base)).storeWord c.nc e.word e.data
  s.modChan c fun v => { v.unqueue e.word with rewritten := e.word :: v.rewritten, acc := v.acc + 1 }

/-! ### Scratch (R116 to R123) -/

/-- Granule of a scratch address. -/
def gran (a : Nat) : Nat := a / 8

/-- One line of a core's scratch as a unit reads it (R120 to R122). -/
def State.readScratch (s : State) (n : Nat) (off : Int) : Line × State :=
  if off < 0 ∨ 0x180000 ≤ off ∨ s.failed n then
    (List.replicate 64 none, s.errCOR n (scratchAddr n (unsext 21 off)) ST.ABSENT 3)
  else
    let a := scratchAddr n (off.toNat / 64 * 64)
    let word (s : State) (w : Nat) : Line × State :=
      let (d, o) := s.decodeWord 3 w []
      let s := match o with
        | .corr _ _ => s.bump F.COR_SCRCORR_COUNT n 0 1
        | .uncorr => s.errCOR n (32 * w) ST.UNCORR 2
        | _ => s
      (d.zipIdx.map (fun p => if smGet false s.gpois (gran (32 * w + p.2)) then none else p.1), s)
    let (x, s) := word s (a / 32)
    let (y, s) := word s (a / 32 + 1)
    (x ++ y, s)

/-- Whether the device is the active side of a linked JOURNAL pair (R461). -/
def State.journalling (s : State) : Bool :=
  s.fget F.CIC_STAT_MODE = 2 && s.fget F.CIC_STAT_ROLE = 0 && s.fget F.CIC_STAT_PSTATE = 2

/-- R461: note that a line was written in this step. -/
def State.noteWrite (s : State) (a : Nat) : State :=
  if s.journalling ∧ !s.cic.wlog.contains a then { s with cic := { s.cic with wlog := s.cic.wlog ++ [a] } } else s

/-- Write bytes of one scratch line under byte enables (R117): whole code words are stored clean; a word changed in part
keeps its bytes, and poisons the granules it does not rewrite wholly where it decodes uncorrectable. -/
def State.writeScratch (s : State) (n : Nat) (off : Int) (d : Line) (en : Nat → Bool) : State :=
  if off < 0 ∨ 0x180000 ≤ off ∨ s.failed n then s.errCOR n (scratchAddr n (unsext 21 off)) ST.ABSENT 3
  else
    let a := scratchAddr n (off.toNat / 64 * 64)
    let s := s.noteWrite a
    let word (s : State) (k : Nat) : State :=
      let w := a / 32 + k
      let ens := (List.range 32).filter fun i => en (32 * k + i)
      if ens = [] then s
      else
        let (old, o) := s.decodeWord 3 w []
        let bad := o = .uncorr ∧ ens.length < 32
        let s := if bad then s.errCOR n (32 * w) ST.UNCORR 2 else s
        let get (i : Nat) : PByte := (d[32 * k + i]?).getD none
        let new := (List.range 32).map fun i => if ens.contains i then (get i).getD 0 else ((old[i]?).getD none).getD 0
        let s := s.putBytes (32 * w) new
        let s := { s with syn := smPut 0 s.syn w 0 }
        (List.range 4).foldl (fun s g =>
          let is := (List.range 8).map (8 * g + ·)
          let whole := is.all ens.contains
          let some_ := is.any ens.contains
          let p := is.any fun i => ens.contains i && (get i).isNone
          let key := gran (32 * w + 8 * g)
          let was := smGet false s.gpois key
          let now := if whole then p else (some_ && p) || was || decide bad
          { s with gpois := smPut false s.gpois key now }) s
    word (word s 0) 1

/-- Bytes of scratch as a unit of the device reads them, line by line: `len` bytes from `off`. -/
def State.scratchBytes (s : State) (n off len : Nat) : Line × State :=
  let first := off / 64
  let last := (off + len - 1) / 64
  let r := (List.range (last + 1 - first)).foldl (fun (p : Line × State) i =>
    let (d, s) := p.2.readScratch n (64 * (first + i) : Nat)
    (p.1 ++ d, s)) (([] : Line), s)
  ((r.1.drop (off % 64)).take len, r.2)

/-- The number that bytes spell, `none` where one is poisoned. -/
def lineNat (l : Line) : Option Nat :=
  if l.all Option.isSome then some (leNat (l.map fun b => b.getD 0)) else none

/-- Write bytes into scratch at any offset, line by line. -/
def State.scratchPut (s : State) (n off : Nat) (d : Line) : State :=
  if d = [] then s
  else
    let first := off / 64
    let last := (off + d.length - 1) / 64
    (List.range (last + 1 - first)).foldl (fun s i =>
      let lo := 64 * (first + i)
      let l := (List.range 64).map fun j => if off ≤ lo + j then (d[lo + j - off]?).getD none else none
      s.writeScratch n (lo : Nat) l fun j => off ≤ lo + j && lo + j < off + d.length) s

/-- Bytes of scratch as they stand, without counting or logging. -/
def State.peekScratch (s : State) (n off len : Nat) : Line :=
  if s.failed n ∨ 0x180000 < off + len then List.replicate len none
  else
    let a := scratchAddr n off
    let w0 := a / 32
    let w1 := (a + len - 1) / 32
    let l := (List.range (w1 + 1 - w0)).flatMap fun i =>
      ((s.decodeWord 3 (w0 + i) []).1.zipIdx.map fun p => if smGet false s.gpois (gran (32 * (w0 + i) + p.2)) then none else p.1)
    (l.drop (a % 32)).take len

end Sys2Proof.Machine
end

