-- ==== Sys2Proof/Machine/Digest.lean ====
section
/-!
DEFINITION. The check codes the spec names: CRC-32 of IEEE 802.3 (R56), CRC-64 of ECMA-182 (R381), CRC-8 of fuse records
(R516), SHA-256 and HMAC-SHA-256 (R427).
-/
namespace Sys2Proof.Machine

/-- One bit of a reflected CRC-32. -/
def crc32Bit : Nat → BitVec 32 → BitVec 32
  | 0, c => c
  | n + 1, c => crc32Bit n (if c.getLsbD 0 then (c >>> 1) ^^^ 0xEDB88320#32 else c >>> 1)

/-- CRC-32 of IEEE 802.3 over bytes. -/
def crc32 (bs : List Byte) : Nat :=
  ((bs.foldl (fun c b => crc32Bit 8 (c ^^^ b.setWidth 32)) 0xFFFFFFFF#32) ^^^ 0xFFFFFFFF#32).toNat

/-- One bit of CRC-64, most significant bit first. -/
def crc64Bit : Nat → BitVec 64 → BitVec 64
  | 0, c => c
  | n + 1, c => crc64Bit n (if c.getLsbD 63 then (c <<< 1) ^^^ 0x42F0E1EBA9EA3693#64 else c <<< 1)

/-- CRC-64 of ECMA-182 over bytes (R381). -/
def crc64 (bs : List Byte) : Nat :=
  (bs.foldl (fun c b => crc64Bit 8 (c ^^^ ((b.setWidth 64 : BitVec 64) <<< 56))) 0#64).toNat

/-- One bit of CRC-8, most significant bit first. -/
def crc8Bit (c : BitVec 8) (b : Bool) : BitVec 8 :=
  if c.getLsbD 7 != b then (c <<< 1) ^^^ 0x07#8 else c <<< 1

/-- R516: CRC-8 over bits 119:0 of a fuse record followed by its slot number. -/
def fuseCrc (data slot : Nat) : Nat :=
  let bs := ((List.range 120).map fun i => data.testBit (119 - i)) ++ ((List.range 9).map fun i => slot.testBit (8 - i))
  (bs.foldl crc8Bit 0#8).toNat

/-! ### SHA-256 (R427 names it; its constants are the fractions of the roots of the first primes) -/

/-- The bits `n - 1` to 0 of the `k`-th root of `x`, rounded down, found from the top; `r` holds the bits above. -/
def rootBits (k x : Nat) : Nat → Nat → Nat
  | 0, r => r
  | n + 1, r => rootBits k x n (if (r + 2 ^ n) ^ k ≤ x then r + 2 ^ n else r)

/-- The primes up to 311: the first 64. -/
def shaPrimes : List Nat :=
  ((List.range 312).drop 2).filter fun p => ((List.range 18).drop 2).all fun d => decide (p ≤ d) || p % d != 0

/-- The first 32 bits of the fraction of the `k`-th root of a prime: with k = 3 the round constants, with k = 2 the initial words. -/
def rootFrac (k p : Nat) : Nat := rootBits k (p * 2 ^ (32 * k)) 38 0 % 2 ^ 32

/-- The exclusive or of copies of a word rotated right. -/
def rotXor (x : BitVec 32) (ns : List Nat) : BitVec 32 := ns.foldl (fun y n => y ^^^ x.rotateRight n) 0

/-- A value of the hash in progress: the latest four words of its two sequences, newest first (the words a to d and e to h). -/
structure ShaPair where
  hi : List (BitVec 32)
  lo : List (BitVec 32)

/-- One round takes the next schedule word with its constant: each sequence gains a word. -/
def ShaPair.round (p : ShaPair) (kw : BitVec 32) : ShaPair :=
  match p.hi, p.lo with
  | [x0, x1, x2, x3], [y0, y1, y2, y3] =>
    let t := kw + y3 + rotXor y0 [6, 11, 25] + ((y0 &&& y1) ||| (y2 &&& ~~~y0))
    { hi := [t + rotXor x0 [2, 13, 22] + ((x0 &&& (x1 ||| x2)) ||| (x1 &&& x2)), x0, x1, x2], lo := [x3 + t, y0, y1, y2] }
  | _, _ => p

/-- The rounds of a block: the sixteen schedule words ahead, oldest first, slide along the schedule as the constants are used. -/
def shaRounds : List Nat → List (BitVec 32) → ShaPair → ShaPair
  | [], _, p => p
  | k :: ks, ws, p =>
    let at_ (i : Nat) : BitVec 32 := ws.getD i 0
    let next := at_ 0 + at_ 9 + (rotXor (at_ 1) [7, 18] ^^^ (at_ 1 >>> 3)) + (rotXor (at_ 14) [17, 19] ^^^ (at_ 14 >>> 10))
    shaRounds ks (ws.drop 1 ++ [next]) (p.round (at_ 0 + BitVec.ofNat 32 k))

/-- One 64-byte block. -/
def shaBlock (ks : List Nat) (h : List (BitVec 32)) (blk : List Byte) : List (BitVec 32) :=
  let ws := (List.range 16).map fun i => BitVec.ofNat 32 (leNat ((blk.drop (4 * i)).take 4).reverse)
  let p := shaRounds ks ws { hi := h.take 4, lo := h.drop 4 }
  List.zipWith (· + ·) h (p.hi ++ p.lo)

/-- The blocks of a padded message. -/
def shaBlocks (ks : List Nat) : Nat → List Byte → List (BitVec 32) → List (BitVec 32)
  | 0, _, h => h
  | n + 1, m, h => shaBlocks ks n (m.drop 64) (shaBlock ks h (m.take 64))

/-- SHA-256. -/
def sha256 (m : List Byte) : List Byte :=
  let z := (119 - m.length % 64) % 64
  let p := m ++ [0x80#8] ++ List.replicate z 0 ++ (leBytes 8 (8 * m.length)).reverse
  let h := (shaPrimes.take 8).map fun q => BitVec.ofNat 32 (rootFrac 2 q)
  (shaBlocks (shaPrimes.map (rootFrac 3)) (p.length / 64) p h).flatMap fun w => (leBytes 4 w.toNat).reverse

/-- HMAC-SHA-256 with a key of at most 64 bytes. -/
def hmac (key m : List Byte) : List Byte :=
  let k := key ++ List.replicate (64 - key.length) 0
  sha256 (k.map (· ^^^ 0x5C#8) ++ sha256 (k.map (· ^^^ 0x36#8) ++ m))

end Sys2Proof.Machine
end

