-- ==== Sys2Proof/Machine/Report.lean ====
section
/-!
DEFINITION. What the device reports: messages on queue pairs (R418 to R426), the black box (R543 to R551) and the delivery of
the events of a command (R537 to R539).
-/
namespace Sys2Proof.Machine

/-! ### Lists by key -/

def State.qp (s : State) (q : Nat) : Qp := smGet {} s.qps q
def State.setQp (s : State) (q : Nat) (v : Qp) : State := { s with qps := smPut {} s.qps q v }
def State.port (s : State) (p : Nat) : Port := smGet {} s.ports p
def State.setPort (s : State) (p : Nat) (v : Port) : State := { s with ports := smPut {} s.ports p v }

def State.setMgmt (s : State) (m : Mgmt) : State := { s with mgmt := m }

/-- A transfer on the management port with a bad PEC is discarded and counted (R433). -/
def State.mgmtWrite (s : State) (pec : Bool) (act : State → State) : State :=
  if pec then act s else s.setMgmt { s.mgmt with discarded := s.mgmt.discarded + 1 }

/-! ### Whether the device serves the outside -/

/-- READY, neither in reset nor latched, with input power. -/
def State.ready (s : State) : Bool :=
  s.fget F.BST_BRINGUP_PHASE = 0xA && s.life.resetN && s.life.aon && !s.life.powerFailed && !s.flag F.PWR_SHUT_LATCH

/-- Microseconds since cold reset (SYS_UTIME): 960 CCLK cycles each. -/
def State.utime (s : State) : Nat := s.cc / 960

/-! ### Messages -/

/-- The queue pair number of work whose queue pair has left: nothing is sent for it (R413). -/
def NO_QP : Nat := 256

/-- Send a message on a queue pair; it stays until the host acknowledges it (R410). -/
def State.send (s : State) (q : Nat) (m : Msg) : State :=
  if NO_QP ≤ q then s else s.setQp q { s.qp q with sendq := (s.qp q).sendq ++ [m] }

/-- R410: a CE-marked packet is answered with a CNP, at most one per queue pair per 50 µs. -/
def State.ceMark (s : State) (q : Nat) : State :=
  let quiet : Bool := match (s.qp q).cnpAt with
    | some t => decide (s.cc < t + 48000)
    | none => false
  if quiet then s
  else (s.setQp q { s.qp q with cnpAt := some s.cc }).bump F.ETH_CNPCNT_COUNT (s.fget F.ECP_QPSTAT_PORT q) 0 1

/-- R426: an EVENT message to the session of a queue pair. -/
def State.sendEvent (s : State) (q : Nat) (e : Event) (code sev : Nat) : State :=
  let v := s.qp q
  if 256 ≤ (v.sendq.filter fun m => m.kind = 4).length then
    (s.setQp q { v with lost := v.lost + 1 }).bump F.ECP_EVLOST_COUNT q 0 1
  else
    let body := leBytes 2 code ++ leBytes 1 sev ++ leBytes 1 0 ++ leBytes 4 v.lost ++ leBytes 8 e.scnt ++ leBytes 8 e.src ++
      leBytes 8 (e.cc / 960)
    s.setQp q { v with lost := 0, sendq := v.sendq ++
      [{ kind := 4, session := s.fget F.ECP_SESSION_SESSION q, body := body }] }

/-- The queue pairs with an open session. -/
def State.sessions (s : State) : List Nat := (List.range 256).filter fun q => s.flag F.ECP_QPSTAT_SESS q

/-! ### The black box -/

/-- The 64 bytes of an entry with its sequence number (R547). -/
def BbrEntry.bytes (e : BbrEntry) (seq : Nat) : List Byte :=
  let b := leBytes 8 seq ++ leBytes 2 e.type ++ leBytes 1 e.sev ++ leBytes 1 e.flags ++ leBytes 4 e.svc ++ leBytes 8 e.utime ++
    leBytes 8 e.scnt ++ (e.payload ++ List.replicate (24 - e.payload.length) 0).take 24 ++ leBytes 4 0
  b ++ leBytes 4 (crc32 b)

def BBR_SHUTDOWN := 2
def BBR_POWER_FAIL := 3
def BBR_ACK := 0xB

/-- An entry of the present. -/
def State.bbrEntry (s : State) (type sev flags : Nat) (payload : List Byte) : BbrEntry :=
  { type := type, sev := sev, flags := flags, svc := s.rget .LIC_SVCTIME % 2 ^ 32, utime := s.utime,
    scnt := if s.running then s.str.scnt.toNat else 0, payload := payload }

/-- Start the next entry when nothing is being programmed (R543, R545): it takes its sequence number. A SHUTDOWN entry is
pending from then on (R551). -/
def State.bbrStart (s : State) : State :=
  match s.bbr.cur, s.bbr.queue with
  | none, e :: q =>
    if !s.flag F.BBR_DEVSTAT_OKA ∧ !s.flag F.BBR_DEVSTAT_OKB then s
    else
      let seq := s.bbr.next
      let roll := decide (0 < s.bbr.rollup ∧ q.length < 512)
      let q' := if roll then q ++ [s.bbrEntry 0xA (Config.entrySev 0xA % 256) 0 (leBytes 4 s.bbr.rollup ++ leBytes 1 s.bbr.rollupSev)] else q
      let b := { s.bbr with next := seq + 1, queue := q', cur := some (seq, e.bytes seq, false),
                            rollup := if roll then 0 else s.bbr.rollup, rollupSev := if roll then 0 else s.bbr.rollupSev }
      let s := { s with bbr := b }
      if e.type = BBR_SHUTDOWN then s.rset .BBR_PENDING 0 0 seq else s
  | _, _ => s

/-- Queue an entry (R545, R546). -/
def State.bbrPut (s : State) (e : BbrEntry) : State :=
  let urgent := e.type = BBR_SHUTDOWN ∨ e.type = BBR_POWER_FAIL
  let n := s.bbr.queue.length
  if (if urgent ∨ e.type = BBR_ACK then decide (1024 ≤ n) else decide (1008 ≤ n)) then
    { s with bbr := { s.bbr with rollup := s.bbr.rollup + 1, rollupSev := max s.bbr.rollupSev e.sev } }.bump F.BBR_QSTAT_LOST 0 0 1
  else
    { s with bbr := { s.bbr with queue := if urgent then e :: s.bbr.queue else s.bbr.queue ++ [e] } }.bbrStart

/-- The copies of entry `n` that check: each device's bytes, the first-written first (R543, R549). -/
def State.bbrCopies (s : State) (n : Nat) : List (List Byte) :=
  let find (d : BbrDev) : Option (List Byte) := (d.held.find? fun p => leNat (p.2.take 8) = n).map (·.2)
  let a := (find s.bbr.devA).toList
  let b := (find s.bbr.devB).toList
  if n % 2 = 0 then a ++ b else b ++ a

/-- The sequence numbers held. -/
def State.bbrSeqs (s : State) : List Nat := (s.bbr.devA.held ++ s.bbr.devB.held).map fun p => leNat (p.2.take 8)
def State.bbrOldest (s : State) : Nat := (s.bbrSeqs.min?).getD 0
def State.bbrNewest (s : State) : Nat := (s.bbrSeqs.max?).getD 0

/-- R549: a read of entry `n`: its bytes and whether it lies in the range held. -/
def State.bbrRead (s : State) (n : Nat) : List Byte × Bool :=
  if n < s.bbrOldest ∨ s.bbrNewest < n ∨ n = 0 then (List.replicate 64 0xFF, false)
  else
    let cs := s.bbrCopies n
    let good := cs.find? fun c => crc32 (c.take 60) = leNat (c.drop 60)
    ((good <|> cs.head?).getD (List.replicate 64 0xFF), true)

/-! ### Delivery of events -/

/-- Deliver one event on every path whose condition it meets (R537). -/
def State.deliver (s : State) (e : Event) : State :=
  let (code, sev, mode) := e.ev.info
  let qs := s.sessions.filter fun q => s.fget F.ECP_SESSION_MINSEV q ≤ sev || e.qp = some q
  let s := qs.foldl (fun s q => s.sendEvent q e code sev) s
  let high := decide (s.fget F.BBR_CFG_THRESH ≤ sev)
  let s := if mode = .always ∨ mode = .sev ∧ high then
      s.bbrPut { s.bbrEntry 1 sev (2 * e.half) (leBytes 2 code ++ leBytes 2 0 ++ leBytes 8 e.src) with
        utime := e.cc / 960, scnt := if e.run then e.scnt else 0 }
    else s
  if high then { s with mgmt := { s.mgmt with alerts := s.mgmt.alerts ||| 1 } } else s

/-- R539: an event that finds the queue full. -/
def State.loseEvent (s : State) : State :=
  s.sessions.foldl (fun s q => s.setQp q { s.qp q with lost := (s.qp q).lost + 1 }) (s.bump F.SYS_EVLOST_COUNT 0 0 1)

/-- The SCLK cycle of an event: four CCLK cycles. -/
def Event.sclk (e : Event) : Nat := e.cc / 4

/-- R538: the order of events: SCLK cycle, code, SRC. -/
def Event.before (a b : Event) : Bool :=
  let ka := a.ev.info.1
  let kb := b.ev.info.1
  decide (a.sclk < b.sclk) || (a.sclk == b.sclk && (decide (ka < kb) || (ka == kb && decide (a.src ≤ b.src))))

def insertEvent (e : Event) : List Event → List Event
  | [] => [e]
  | x :: xs => if x.before e then x :: insertEvent e xs else e :: x :: xs

/-- Insertion sort, stable. -/
def sortEvents : List Event → List Event → List Event
  | acc, [] => acc
  | acc, e :: es => sortEvents (insertEvent e acc) es

/-- Deliver an event of an SCLK cycle that is over; the queue took 4,096 of each cycle. -/
def deliverNext (p : State × Nat × Nat) (e : Event) : State × Nat × Nat :=
  let n := if e.sclk = p.2.1 then p.2.2 + 1 else 1
  (if n ≤ 4096 then p.1.deliver e else p.1.loseEvent, e.sclk, n)

/-- The events of SCLK cycles that are over, in the order of R538, and those of the present one, which wait until it is. -/
def State.eventsDue (s : State) : List Event × List Event := (sortEvents [] s.raised).partition fun e => decide (e.sclk < s.cc / 4)

/-- The events of SCLK cycles that are over are delivered; of those of the present cycle at most 4,096 find room in the queue (R537 to
R539). -/
def State.deliverDue (s : State) : State :=
  (s.eventsDue.2.drop 4096).foldl (fun s _ => s.loseEvent) (s.eventsDue.1.foldl deliverNext (s, s.cc, 0)).1

/-- The end of a command: events that are due are delivered, and the command's error marks are dropped. -/
def State.settle (s : State) : State := { s.deliverDue with raised := s.eventsDue.2.take 4096, errNow := [] }

/-- The state after a command's effect: events that are due are delivered, and the queue is as it was. -/
def State.finish (s t : State) : State := { t.settle with pending := s.pending }

/-- A command that occurs only where its condition holds (R110, assumption 2): its effect, then the delivery of its events. -/
def State.when (s : State) (c : Bool) (effect : State → State) : Host.Outcome State Fault Refusal :=
  .next (if c then s.finish (effect s) else s)

end Sys2Proof.Machine
end

