-- ==== Sys2Proof/Machine/Fuse.lean ====
section
/-!
DEFINITION. Fuse-record slots (R516 to R518): their classes and fields, and the writing of records (R518, R519).
-/
namespace Sys2Proof.Machine

/-- A fuse slot of a half. -/
def State.slot (s : State) (h i : Nat) : FuseSlot := smGet {} s.life.slots (512 * h + i)
def State.setSlot (s : State) (h i : Nat) (v : FuseSlot) : State :=
  { s with life := { s.life with slots := smPut {} s.life.slots (512 * h + i) v } }

/- The classes of R517 as FUS_SEL.CLASS encodes them. -/
namespace FZ
abbrev EMPTY := 0
abbrev VALID := 1
abbrev CONSUMED := 2
abbrev BAD := 3
end FZ

/-- Valid fuses that are blown. -/
def FuseSlot.valids (x : FuseSlot) : Nat := ((List.range 3).filter fun i => x.v.testBit i).length

/-- R517: the class of slot `i`. A slot with a lone valid fuse and no data fuse has been begun and is used up. -/
def FuseSlot.cls (x : FuseSlot) (i : Nat) : Nat :=
  if x.data = 0 ∧ x.v = 0 then FZ.EMPTY
  else if x.valids < 2 then FZ.CONSUMED
  else if bits x.data 127 120 = fuseCrc x.data i ∧ 1 ≤ bits x.data 3 0 ∧ bits x.data 3 0 ≤ 5 then FZ.VALID
  else FZ.BAD

/-- The slots of a half that are in use, by number. -/
def State.slotsOf (s : State) (h : Nat) : List (Nat × FuseSlot) :=
  (s.life.slots.filter fun p => p.1 / 512 = h).map fun p => (p.1 % 512, p.2)

/-- The VALID records of a half: bits 50:0 of their data fuses (R516). -/
def State.validRecs (s : State) (h : Nat) : List Nat :=
  ((s.slotsOf h).filter fun p => p.2.cls p.1 = FZ.VALID).map fun p => p.2.data % 2 ^ 51

def State.slotsUsed (s : State) (h : Nat) : Nat := ((s.slotsOf h).filter fun p => p.2.cls p.1 ≠ FZ.EMPTY).length
def State.slotsBad (s : State) (h : Nat) : Nat := ((s.slotsOf h).filter fun p => p.2.cls p.1 = FZ.BAD).length

/-- The lowest EMPTY slot from one on; 512 where there is none. -/
def State.emptySlot (s : State) (h lo : Nat) : Nat :=
  ((List.range 512).find? fun i => decide (lo ≤ i) && (s.slot h i).cls i = FZ.EMPTY).getD 512

/-! ### Records -/

/- The types of R516. -/
namespace RT
abbrev VAULT_ROW := 1
abbrev VAULT_CONN := 2
abbrev ARR_ROW := 3
abbrev CLUSTER_RETIRE := 4
abbrev SIDE_PIN := 5
end RT

/-- Bits [50:0] of a record. -/
def recVaultRow (p core ch bank row spare : Nat) : Nat :=
  RT.VAULT_ROW + p * 2 ^ 4 + core * 2 ^ 11 + ch * 2 ^ 14 + bank * 2 ^ 21 + row * 2 ^ 25 + spare * 2 ^ 35
def recConn (p core ch i : Nat) : Nat := RT.VAULT_CONN + p * 2 ^ 4 + core * 2 ^ 11 + ch * 2 ^ 14 + i * 2 ^ 38
def recArrRow (p core r : Nat) : Nat := RT.ARR_ROW + p * 2 ^ 4 + core * 2 ^ 11 + r * 2 ^ 38
def recRetire (p cause : Nat) : Nat := RT.CLUSTER_RETIRE + p * 2 ^ 4 + cause * 2 ^ 47
def recPin (k ch i : Nat) : Nat := RT.SIDE_PIN + k * 2 ^ 4 + ch * 2 ^ 16 + i * 2 ^ 38

def recType (x : Nat) : Nat := bits x 3 0
def recUnit (x : Nat) : Nat := bits x 10 4
def recCore (x : Nat) : Nat := bits x 13 11
def recChan (x : Nat) : Nat := bits x 15 14
def recSchan (x : Nat) : Nat := bits x 20 16
def recBank (x : Nat) : Nat := bits x 24 21
def recRow (x : Nat) : Nat := bits x 34 25
def recSpare (x : Nat) : Nat := bits x 37 35
def recIndex (x : Nat) : Nat := bits x 46 38

/-- R519: the place of a record in the order of a commit: its kind, then its physical address. -/
def recKey (x : Nat) : Nat :=
  let kind := if recType x = RT.CLUSTER_RETIRE then 0 else if recType x = RT.ARR_ROW then 1 else if recType x = RT.VAULT_CONN then 2
    else if recType x = RT.VAULT_ROW then 3 else 4
  (((((((kind * 128 + recUnit x) * 8 + recCore x) * 4 + recChan x) * 32 + recSchan x) * 16 + recBank x) * 1024 + recRow x) * 512
    + recIndex x) * 8 + recSpare x

def insertRec (x : Nat) : List Nat → List Nat
  | [] => [x]
  | y :: ys => if recKey y ≤ recKey x then y :: insertRec x ys else x :: y :: ys

/-- The records in the order of a commit, each once. -/
def sortRecs (xs : List Nat) : List Nat := xs.eraseDups.foldl (fun l x => insertRec x l) []

/-! ### Writing records (R518, R519) -/

/-- A record is written to a slot: its data fuses, then V0 to V2; where the read-back differs no valid fuse is blown. The class is the
second result. -/
def State.fuseWrite (s : State) (h i r : Nat) (bad : Bool) : State × Nat :=
  let (x, s) := s.fresh
  let data := if bad then (if x % 2 ^ 128 = 0 then r else x % 2 ^ 128) else r + fuseCrc r i * 2 ^ 120
  let f : FuseSlot := { data := data, v := if bad then 0 else 7 }
  let s := s.setSlot h i f
  let c := f.cls i
  (s.bbrPut (s.bbrEntry 7 (Config.entrySev 7 % 256) (2 * h) (leBytes 2 h ++ leBytes 2 i ++ leBytes 4 c ++ leBytes 7 r)), c)

/-- A written row repair shows as FUSED. -/
def State.markFused (s : State) (h r : Nat) : State :=
  let s := { s with life := { s.life with found := s.life.found.filter fun q => q ≠ (h, r) } }
  if recType r ≠ RT.VAULT_ROW then s
  else match s.logOf (66 * h + recUnit r) with
    | none => s
    | some k =>
      let n := 8 * k + recCore r
      match (s.weakRows n (recChan r)).find? fun w => bits w.2 63 61 = 2 && bits w.2 23 20 = recBank r && bits w.2 19 10 = recRow r with
      | some (i, v) => s.rset .VLT_WEAK n (16 * recChan r + i) (setBits v 63 61 3)
      | none => s

/-- One record of a commit: records written so far, and repairs left soft for want of a slot. A record whose read-back differs is written
once more in the next empty slot. -/
def commitOne (h : Nat) (bad : List Nat) (p : State × Nat × Nat) (r : Nat) : State × Nat × Nat :=
  let (s, w, full) := p
  let try_ (s : State) : Option (State × Bool) :=
    let i := s.emptySlot h 0
    if i = 512 then none
    else
      let b := bad.contains i
      let (s, _) := s.fuseWrite h i r b
      some (if b then s else s.markFused h r, !b)
  match try_ s with
  | none => (s, w, full + 1)
  | some (s, true) => (s, w + 1, full)
  | some (s, false) =>
    match try_ s with
    | none => (s, w, full + 1)
    | some (s, ok) => (s, if ok then w + 1 else w, full)

/-- R518, R524: the commit of a Molt that is interrupted. How many of its records are written whole by then is open, and so is how far the
one after them has come: not begun, in its data phase, past V0 alone, or past V1. -/
def State.commitBreak (s : State) (m : Molt) : State :=
  if m.records = [] then s
  else
    let (x, s) := s.fresh
    let n := x % (m.records.length + 1)
    let s := ((m.records.take n).foldl (commitOne m.half []) (s, 0, 0)).1
    match m.records[n]? with
    | none => s
    | some r =>
      let (y, s) := s.fresh
      let (z, s) := s.fresh
      let i := s.emptySlot m.half 0
      let d := r + fuseCrc r i * 2 ^ 120
      if i = 512 then s
      else match y % 4 with
        | 0 => s
        | 1 => s.setSlot m.half i { data := d &&& z, v := 0 }
        | 2 => s.setSlot m.half i { data := d, v := 1 }
        | _ => (s.setSlot m.half i { data := d, v := 3 }).markFused m.half r

end Sys2Proof.Machine
end

