-- ==== Sys2Proof/Machine/Vector.lean ====
section
/-!
DEFINITION. The vector unit (R139 to R148): one operation on the lanes of vector registers.
-/
namespace Sys2Proof.Machine

/-- A vector template record (R140). -/
structure VTpl where
  srcA : Nat
  srcB : Nat
  srcC : Nat
  dst : Nat
  lfmt : Nat
  bftz : Bool
  cfmt : Nat
  topk : Nat
  cscale : Int
  deriving DecidableEq, Repr

/-- A number in a core's template tables. -/
def Core.tplNat (c : Core) (off n : Nat) : Nat := leNat ((List.range n).map fun i => smGet 0 c.tpl (off + i))

/-- R73, R140: vector template `i`. -/
def Core.vtpl (c : Core) (i : Nat) : VTpl :=
  let b (k : Nat) := c.tplNat (0x2000 + 64 * i + k) 1
  { srcA := b 0, srcB := b 1, srcC := b 2, dst := b 3, lfmt := b 4 % 16, bftz := b 4 / 16 % 2 = 1, cfmt := b 5 % 16,
    topk := let k := b 6; if k = 0 then 1 else min k 8, cscale := sext 16 (c.tplNat (0x2000 + 64 * i + 8) 2) }

/-- R131, R140, R142: whether a template serves VLD (0x1E) or VST (0x1F): one operand a scratch generator, the other a vector register, and the
lane format one that the unit accepts. -/
def VTpl.moves (t : VTpl) (op : Nat) : Bool :=
  (t.lfmt = 0 || t.lfmt = 1 || t.lfmt = 9 || t.lfmt = 10) &&
    (if op = 0x1E then t.srcA / 16 = 3 && t.dst / 16 = 1 else t.dst / 16 = 3 && t.srcA / 16 = 1)

/-- Contents of a vector register. -/
def Core.vr (c : Core) (r : Nat) : Line := smGet (List.replicate 256 (some 0)) c.vreg r

/-- The latency of an operation (R142): float lanes, integer lanes. -/
def vopLatency : Nat → Nat × Nat
  | 0x01 => (4, 2) | 0x02 => (4, 2) | 0x03 => (4, 4) | 0x04 => (5, 5) | 0x05 => (2, 2) | 0x06 => (2, 2) | 0x07 => (1, 1)
  | 0x08 => (12, 12) | 0x09 => (10, 10) | 0x0A => (10, 10) | 0x0B => (12, 12) | 0x0C => (2, 2) | 0x0D => (2, 2)
  | 0x0E => (2, 2) | 0x0F => (1, 1) | 0x10 => (10, 10) | 0x11 => (8, 8) | 0x12 => (6, 6) | 0x13 => (2, 2)
  | 0x14 => (3, 3) | 0x15 => (6, 6) | 0x16 => (6, 6) | 0x1E => (3, 3) | _ => (1, 1)

/-- The lane formats an operation accepts (R142). -/
def vopAccepts (op : Nat) (f : Fmt) : Bool :=
  let flt := f = .fp32 || f = .bf16
  match op with
  | 0x08 => flt | 0x09 => flt | 0x0A => flt | 0x0B => flt | 0x15 => flt
  | 0x10 => flt || f = .int32
  | 0x12 => f = .fp32 | 0x13 => f = .fp32
  | 0x16 => f = .int32
  | 0x17 => !flt | 0x18 => !flt | 0x19 => !flt | 0x1A => !flt | 0x1B => !flt | 0x1C => !flt | 0x1D => !flt
  | _ => true

/-- The lanes of an operand: a register, or the immediate of R139 in every lane; `none` for an operand of another kind. -/
def Core.lanes (c : Core) (src imm : Nat) (f : Fmt) (bftz : Bool) : Option (List (Option Nat)) :=
  let n := 2048 / f.width
  let flush (x : Nat) : Nat := if bftz ∧ f = .bf16 ∧ bits x 14 7 = 0 then x / 0x8000 * 0x8000 else x
  match src / 16 with
  | 1 => let l := c.vr (src % 16); some ((List.range n).map fun i => (elemAt f.width l i).map flush)
  | 2 =>
    let x := if f.isInt then unsext f.width (sext 8 imm) else f.encode false (Fmt.e4m3.decode imm)
    some (List.replicate n (some (flush x)))
  | _ => none

/-- Lane-wise application; a poisoned lane stays poisoned (R156). -/
def lift1 (g : Nat → Nat) (a : List (Option Nat)) : List (Option Nat) := a.map (·.map g)
def lift2 (g : Nat → Nat → Nat) (a b : List (Option Nat)) : List (Option Nat) :=
  List.zipWith (fun x y => x.bind fun x => y.map (g x)) a b
def lift3 (g : Nat → Nat → Nat → Nat) (a b c : List (Option Nat)) : List (Option Nat) :=
  List.zipWith (fun p z => p.bind fun p => z.map fun z => g p.1 p.2 z)
    (List.zipWith (fun x y => x.bind fun x => y.map fun y => (x, y)) a b) c

/-- An operation on values of a lane format: floats decode, operate exactly and round once. -/
def fop2 (f : Fmt) (g : FV → FV → FV) (h : Int → Int → Int) (x y : Nat) : Nat :=
  if f.isInt then unsext f.width (h (sext f.width x) (sext f.width y)) else f.encode false (g (f.decode x) (f.decode y))

/-- a < b in a lane format. -/
def ltF (f : Fmt) (x y : Nat) : Bool := (f.decode x).lt (f.decode y)
def eqF (f : Fmt) (x y : Nat) : Bool := (f.decode x).eq (f.decode y)

/-- One level of the reduction tree of R145. -/
def treeLevel (g : Nat → Nat → Nat) : List (Option Nat) → List (Option Nat)
  | x :: y :: l => (x.bind fun x => y.map (g x)) :: treeLevel g l
  | l => l

/-- The reduction tree: levels until one value remains. -/
def treeRed (g : Nat → Nat → Nat) : Nat → List (Option Nat) → Option Nat
  | 0, l => (l.headD none)
  | n + 1, l => treeRed g n (treeLevel g l)

/-- R148. -/
def vmix (seed counter : Nat) : Nat :=
  let m := 2 ^ 64
  let z := (seed + (counter + 1) * 0xA4C36B2D915EF07B) % m
  let z := ((z ^^^ (z >>> 31)) * 0x8E61D2F53C97A40D) % m
  (z ^^^ (z >>> 29)) >>> 32

/-- R146: whether candidate (value, index) ranks above another: larger value, then lower index; −0 equals +0. -/
def ranksAbove (p q : Nat × Nat) : Bool :=
  ltF .fp32 q.1 p.1 || (eqF .fp32 p.1 q.1 && decide (p.2 < q.2))

/-- Insert a candidate into a descending list. -/
def tkInsert (x : Nat × Nat) : List (Nat × Nat) → List (Nat × Nat)
  | [] => [x]
  | y :: l => if ranksAbove x y then x :: y :: l else y :: tkInsert x l

/-- R146: merge candidates; NaN candidates are never entered. -/
def tkMerge (k : Nat) (l : List (Nat × Nat)) (cands : List (Nat × Nat)) : List (Nat × Nat) :=
  (cands.foldl (fun l x => if (Fmt.fp32.decode x.1).isNan then l else tkInsert x l) l).take k

/-- The scale byte and the elements of one quantised block (R147); `none` for a poisoned block. The elements of a block that holds
a NaN are free: the spec states its scale alone. An infinity has no greatest exponent, so X takes its upper bound. -/
def quantBlock (lf cf : Fmt) (xs : List (Option Nat)) : Option (Nat × List Nat) :=
  if xs.all Option.isSome then
    let vs := xs.map fun x => lf.decode (x.getD 0)
    if vs.any FV.isNan then
      some (255, (List.range vs.length).map fun i => Config.freeOf 2 (lf.code :: cf.code :: i :: xs.map (·.getD 0)) % 2 ^ cf.width)
    else
      let emax : Int := match cf with
        | .e4m3 => 8 | .e5m2 => 15 | .e2m3 => 2 | .e3m2 => 4 | _ => 2
      let x : Int := match (vs.filterMap fun v => match v with
          | .inf _ => some (1000 : Int)
          | v => v.log2).max? with
        | none => -127
        | some m => max (-127) (min 127 (m - emax))
      some ((x + 127).toNat, vs.map fun v => cf.encode true (v.scale (-x)))
  else none

/-- R142 VCVT: one element; `none` stands for a result that the spec does not state (a value beyond the range of an FP6, FP4 or integer
format, a NaN in a format without one). E4M3 saturates, infinities included (R137, R238). -/
def cvtElem (lf cf : Fmt) (k : Int) (x : Nat) : Option Nat :=
  let v := (lf.decode x).scale k
  if cf.isInt then
    match v with
    | .fin n m e =>
      let r := roundQ m e 0
      let z : Int := if n then -(r : Int) else r
      if -(2 ^ (cf.width - 1) : Int) ≤ z ∧ z < 2 ^ (cf.width - 1) then some (unsext cf.width z) else none
    | _ => none
  else
    match v with
    | .nan => if cf.top = .finite then none else some cf.nanCode
    | v => if cf = .e4m3 then some (cf.encode true v) else if cf.top ≠ .ieee ∧ cf.exceeds v then none else some (cf.encode false v)

/-- What an operation does besides timing. -/
inductive VRes where
  /-- the unit stays idle and EV_SCHED is raised -/
  | bad
  /-- bytes of DST -/
  | reg (bytes : List (Nat × PByte))
  /-- bytes of DST and the compare flag -/
  | cmp (bytes : List (Nat × PByte)) (flag : Option Bool)
  /-- candidates of the top-k list, its length, and whether one is poisoned -/
  | tkIns (k : Nat) (cands : List (Nat × Nat)) (pois : Bool)
  /-- bytes of DST; the list empties -/
  | tkOut (bytes : List (Nat × PByte))
  deriving DecidableEq, Repr

/-- Lanes as numbered bytes of a register. -/
def regBytes (w : Nat) (xs : List (Option Nat)) : List (Nat × PByte) := (packElems w xs).zipIdx.map fun p => (p.2, p.1)

/-- Poison the lanes that a mismatch hit. -/
def hitLanes (hits : List Nat) (xs : List (Option Nat)) : List (Option Nat) :=
  if hits = [] then xs else xs.zipIdx.map fun p => if hits.contains p.2 then none else p.1

/-- One vector operation on the registers of a core (R142 to R148). Results that the spec does not state are free values of the operands;
`hits` are the lanes a residue or parity mismatch of this cycle fell on (R149). -/
def Core.vop (c : Core) (op : Nat) (t : VTpl) (imm : Nat) (hits : List Nat) : VRes :=
  match Fmt.ofCode t.lfmt with
  | none => .bad
  | some f =>
    if !(f = .fp32 || f = .bf16 || f = .int32 || f = .int16) || !vopAccepts op f then .bad
    else
      let w := f.width
      let ones := 2 ^ w - 1
      let A := c.lanes t.srcA imm f t.bftz
      let B := c.lanes t.srcB imm f t.bftz
      let C := c.lanes t.srcC imm f t.bftz
      let out (r : Option (List (Option Nat))) : VRes := match r with
        | some xs => .reg (regBytes w (hitLanes hits xs))
        | none => .bad
      let un (g : FV → FV) : VRes := out (A.map (lift1 fun x => f.encode false (g (f.decode x))))
      let bin (g : FV → FV → FV) (h : Int → Int → Int) : VRes := out (do some (lift2 (fop2 f g h) (← A) (← B)))
      let cmp (g : Nat → Nat → Bool) : VRes := match A, B with
        | some a, some b =>
          let r := hitLanes hits (lift2 (fun x y => if g x y then ones else 0) a b)
          .cmp (regBytes w r) (if r.any Option.isNone then none else some (r.any fun x => x ≠ some 0))
        | _, _ => .bad
      let log2i (g : Nat → Nat → Nat) : VRes := out (do some (lift2 g (← A) (← B)))
      let shift (g : Nat → Nat → Nat) : VRes :=
        let cnt : Option (List (Option Nat)) :=
          if t.srcB / 16 = 1 then B else some (List.replicate (2048 / w) (some (imm % 32)))
        out (do some (lift2 (fun x k => g x (k % w)) (← A) (← cnt)))
      -- R145, R149: a mismatch of a reduction poisons lane 0
      let lane0 (r : Option Nat) : VRes :=
        .reg (regBytes w ((if hits = [] then r else none) :: List.replicate (2048 / w - 1) (some 0)))
      let red (g : Nat → Nat → Nat) : VRes := match A with
        | some a => lane0 (treeRed g 7 a)
        | none => .bad
      match op with
      | 0x01 => bin FV.add (· + ·)
      | 0x02 => bin (fun a b => a.add b.neg) (· - ·)
      | 0x03 => bin FV.mul (· * ·)
      | 0x04 => out (do some (lift3 (fun x y z =>
          if f.isInt then unsext w (sext w x * sext w y + sext w z)
          else f.encode false (((f.decode x).mul (f.decode y)).add (f.decode z))) (← A) (← B) (← C)))
      | 0x05 => bin FV.max max
      | 0x06 => bin FV.min min
      | 0x07 => out (A.map (lift1 fun x =>
          if f.isInt then unsext w (sext w x).natAbs
          else f.encode false (match f.decode x with
            | .fin _ m e => .fin false m e
            | .inf _ => .inf false
            | .nan => .nan)))
      | 0x08 => un FV.exp
      | 0x09 => un FV.exp2
      | 0x0A => un FV.rcp
      | 0x0B => un FV.rsq
      | 0x0C => cmp fun x y => eqF f x y
      | 0x0D => cmp fun x y => ltF f x y
      | 0x0E => cmp fun x y => ltF f x y || eqF f x y
      | 0x0F => match A, B, C with
        | some a, some b, some m =>
          out (some ((List.range (2048 / w)).map fun i => match (m[i]?).getD none with
            | none => none
            | some z => if eqF f z 0 then (b[i]?).getD none else (a[i]?).getD none))
        | _, _, _ => .bad
      | 0x10 => if f = .bf16 then
            (match A with
             | some a =>
               let a32 := lift1 (fun x => x * 2 ^ 16) a
               lane0 ((treeRed (fop2 .fp32 FV.add (· + ·)) 7 a32).map fun x => Fmt.bf16.encode false (Fmt.fp32.decode x))
             | none => .bad)
          else red (fop2 f FV.add (· + ·))
      | 0x11 => red (fop2 f FV.max max)
      | 0x12 => match A, B with
        | some a, some b =>
          let p := List.zip a b
          let pois := p.any (fun q => q.1.isNone || q.2.isNone) || decide (hits ≠ [])
          .tkIns t.topk (p.filterMap fun q => q.1.bind fun x => q.2.map fun i => (x, i)) pois
        | _, _ => .bad
      | 0x13 =>
        let slot (i : Nat) : Nat × Nat := (c.topk[i]?).getD (0xFF800000, 0xFFFFFFFF)
        let lane (l : Nat) (v : Nat) : List (Nat × PByte) :=
          (List.range 4).map fun j => (4 * l + j, if c.topkPois ∨ hits ≠ [] then none else some (BitVec.ofNat 8 (v >>> (8 * j))))
        .tkOut ((List.range 8).flatMap fun i => lane i (slot i).1 ++ lane (32 + i) (slot i).2)
      | 0x14 => match Fmt.ofCode t.cfmt, A with
        | some cf, some a =>
          if cf = .e8m0 then .bad
          else
            let n := min (2048 / w) (2048 / cf.width)
            let xs := (a.take n).map fun x => x.map fun x =>
              (cvtElem f cf t.cscale x).getD (Config.freeOf 1 [f.code, cf.code, unsext 16 t.cscale, x] % 2 ^ cf.width)
            .reg (regBytes cf.width (hitLanes hits xs))
        | _, _ => .bad
      | 0x15 => match Fmt.ofCode t.cfmt, A with
        | some cf, some a =>
          if !cf.isMx then .bad
          else
            let nb := 2048 / w / 32
            let blocks := (List.range nb).map fun i =>
              let q := quantBlock f cf ((a.drop (32 * i)).take 32)
              if hits.any (fun h => h / 32 = i) then none else q
            let els := blocks.flatMap fun q => match q with
              | some (_, xs) => xs.map some
              | none => List.replicate 32 none
            let l := packElems cf.width els ++ blocks.map fun q => q.map fun p => BitVec.ofNat 8 p.1
            .reg (l.zipIdx.map fun p => (p.2, p.1))
        | _, _ => .bad
      | 0x16 => match A, B with
        | some a, some b =>
          out (some (a.map fun x => do
            let lo ← (b[0]?).getD none
            let hi ← (b[1]?).getD none
            some (vmix (lo + hi * 2 ^ 32) (← x))))
        | _, _ => .bad
      | 0x17 => out (some ((List.range (2048 / w)).map some))
      | 0x18 => log2i (· &&& ·)
      | 0x19 => log2i (· ||| ·)
      | 0x1A => log2i (· ^^^ ·)
      | 0x1B => shift fun x k => (x <<< k) % 2 ^ w
      | 0x1C => shift fun x k => x >>> k
      | 0x1D => shift fun x k => unsext w (sext w x / (2 ^ k : Nat))
      | 0x20 => out A
      | _ => .bad

end Sys2Proof.Machine
end

