-- ==== Sys2Proof/Machine/Engines.lean ====
section
/-!
DEFINITION. Exact accumulation (R132 to R138), the matrix array (R161 to R182) and the matrix-vector unit (R183 to R190) of
one core, as functions of the core.
-/
namespace Sys2Proof.Machine

/-! ### Accumulators -/

/-- Wrap to 96 bits of two's complement (R132). -/
def wrap96 (x : Int) : Int := sext 96 (unsext 96 x)

/-- R134, R135: one product enters an accumulator; the second result says whether it was rounded on entry. -/
def Acc.enter (a : Acc) (p : Prod) : Acc × Bool :=
  let q := a.w - 40
  let neg : Bool := p.m < 0
  let r := roundQ p.m.natAbs p.e q
  let v : Int := if neg then -(r : Int) else r
  ({ a with a := wrap96 (a.a + v), ovf := a.ovf || decide (a.w < p.be) }, decide (p.m ≠ 0 ∧ p.e < q))

/-- The products of a column enter its accumulator; the second result counts the roundings. -/
def Acc.enterCol (a : Acc) (c : ColSum) : Acc × Nat :=
  let (a, lost) := c.prods.foldl (fun (s : Acc × Nat) p =>
    let (a, r) := s.1.enter p
    (a, s.2 + (if r then 1 else 0))) (a, 0)
  let cnt := a.cnt + c.cnt
  ({ a with cnt := cnt, nan := a.nan || c.nan, pinf := a.pinf || c.pinf, ninf := a.ninf || c.ninf, pois := a.pois || c.pois,
            ovf := a.ovf || decide (4194304 < cnt) || c.top.any fun b => decide (a.w < b) }, lost)

/-- R137: convert an accumulator into an output format; a poisoned one gives a poisoned element. -/
def Acc.convert (a : Acc) (f : Fmt) : Option Nat :=
  if a.pois then none
  else if a.nan || a.ovf || (a.pinf && a.ninf) then some f.nanCode
  else if a.pinf then some (f.encode false (.inf false))
  else if a.ninf then some (f.encode false (.inf true))
  else if a.a = 0 then some 0
  else some (f.encode (decide (f = .e4m3)) (.fin (decide (a.a < 0)) a.a.natAbs (a.w - 40)))

/-- Add the exact product of two values with their block exponents to a column (R134 to R136). -/
def ColSum.times (c : ColSum) (x y : Option (FV × Int)) : ColSum :=
  match x, y with
  | some (u, bu), some (v, bv) =>
    let c := { c with cnt := c.cnt + 1 }
    let top := max (bu + bv) (c.top.getD (bu + bv))
    match u.mul v with
    | .nan => { c with nan := true, top := some top }
    | .inf n => if n then { c with ninf := true, top := some top } else { c with pinf := true, top := some top }
    | .fin n m e =>
      { c with prods := { m := if n then -(m : Int) else m, e := e, be := bu + bv } :: c.prods }
  | _, _ => { c with pois := true, cnt := c.cnt + 1 }

/-- R126: a BF16 subnormal replaced by a zero of its sign. -/
def flushBf (f : Fmt) (ftz : Bool) (x : Nat) : Nat := if ftz ∧ f = .bf16 ∧ bits x 14 7 = 0 then x / 0x8000 * 0x8000 else x

/-- The unbiased exponent of a BF16 element, zeros and subnormals taken as −126 (R133). -/
def bfExp (x : Nat) : Int := let e := bits x 14 7; if e = 0 then -126 else (e : Int) - 127

/-- The block exponent of a block whose scale is 0xFF, which has none: below every window. -/
def noExp : Int := -100000

/-- An element with its block exponent: a scale of 0xFF makes it NaN (R128), a poisoned byte poisons it. -/
def operand (f : Fmt) (ftz : Bool) (x : Option Nat) (scale : PByte) : Option (FV × Int) :=
  x.bind fun x =>
    if f = .bf16 then let y := flushBf f ftz x; some (f.decode y, bfExp y)
    else scale.map fun b => match scaleExp b.toNat with
      | some e => ((f.decode x).scale e, e)
      | none => (.nan, noExp)

/-! ### The matrix array -/

/-- An array template record (R189). -/
structure ATpl where
  wf : Fmt
  sf : Fmt
  out : Fmt
  ftz : Bool
  clr : Bool
  drn : Bool
  wsrc : Bool
  wsmax : Int
  accBase : Nat
  nrow : Nat
  ldE : Nat
  ldS : Nat
  wE : Nat
  wS : Nat
  os : Nat
  deriving DecidableEq, Repr

/-- R161: the pairs of weight and stationary format that the array accepts. -/
def arrayPair (w s : Fmt) : Bool :=
  match w with
  | .e2m1 => s.isMx
  | .int4 => s = .int8 || s = .int4
  | .e4m3 => s.isMx | .e5m2 => s.isMx | .e2m3 => s.isMx | .e3m2 => s.isMx
  | .int8 => s = .int8 || s = .int4
  | .bf16 => s = .bf16
  | _ => false

/-- R161: two reduction indices per cell. -/
def twoK (w : Fmt) : Bool := w = .e2m1 || w = .int4

/-- R189: array template `i`; `none` where a format or a field is outside its range (R131, R190). -/
def Core.atpl (c : Core) (i : Nat) : Option ATpl :=
  let b (k : Nat) := c.tplNat (64 * i + k) 1
  match Fmt.ofCode (b 0 % 16), Fmt.ofCode (b 0 / 16), Fmt.ofCode (b 1 % 16) with
  | some wf, some sf, some out =>
    let acc := c.tplNat (64 * i + 4) 2
    let nrow := c.tplNat (64 * i + 6) 2
    if arrayPair wf sf && decide (b 1 % 16 ≤ 3) && decide (acc ≤ 255) && decide (nrow ≤ 256) then
      some { wf := wf, sf := sf, out := out, ftz := bits (b 1) 4 4 = 1, clr := bits (b 1) 5 5 = 1,
             drn := bits (b 1) 6 6 = 1, wsrc := bits (b 1) 7 7 = 1, wsmax := sext 8 (b 2), accBase := acc,
             nrow := if nrow = 0 then 256 else nrow, ldE := b 8 % 16, ldS := b 8 / 16, wE := b 9 % 16, wS := b 9 / 16,
             os := b 10 % 16 }
    else none
  | _, _, _ => none

/-- R165: element and scale bytes of an output row. -/
def rowBytes (w : Fmt) : Nat × Nat :=
  if w = .bf16 then (128, 0) else if twoK w then (64, 4) else if w = .e2m3 ∨ w = .e3m2 then (48, 2) else (64, 2)

/-- R170: element bytes of a stationary tile, rows × 64 × element bits / 8. -/
def tileBytes (w s : Fmt) : Nat := (if twoK w then 128 else 64) * 64 * s.width / 8

/-- The stationary sets: 0 is A, 1 is B. -/
def Arr.set (a : Arr) (i : Nat) : StatSet := smGet {} a.sets i

/-- The stationary element of reduction index k and column c with its block exponent; the sets start as zeros with every
block scale 0x7F (R170). -/
def StatSet.at (s : StatSet) (f : Fmt) (ftz : Bool) (k c : Nat) : Option (FV × Int) :=
  let x : Option Nat := if s.elems = [] then some 0 else elemAt f.width s.elems (64 * k + c)
  let sc : PByte := if s.scales = [] then some 0x7F else (s.scales[64 * (k / 32) + c]?).getD none
  operand f ftz x sc

/-- R133, R170: the set's largest block exponent. -/
def StatSet.maxExp (s : StatSet) (f : Fmt) (ftz : Bool) : Int :=
  if f = .bf16 then
    (((List.range (s.elems.length / 2)).filterMap fun i => (elemAt 16 s.elems i).map fun x => bfExp (flushBf f ftz x)).max?).getD (-126)
  else if s.scales = [] then 0
  else ((s.scales.filterMap fun b => b.bind fun b => scaleExp b.toNat).max?).getD 0

/-- Bytes reach a queue of `cap` bytes; those that find it full are lost. -/
def pushQ (cap : Nat) (q d : Line) : Line × Bool := (q ++ d.take (cap - q.length), decide (cap < q.length + d.length))

/-- Bytes reach a side's element and scale queues (R165, R166). -/
def ASide.push (a : ASide) (e s : Line) : ASide × Bool :=
  let (eq, l1) := pushQ 1024 a.eq e
  let (sq, l2) := pushQ 256 a.sq s
  ({ a with eq := eq, sq := sq, ovf := a.ovf || l1 || l2 }, l1 || l2)

/-- R162, R166: issue one output row of `cols` from a side's queues. The second result is the row, the third says that the
queues fell short. -/
def ASide.issue (a : ASide) (ti : Nat) (t : ATpl) (st : StatSet) (setB : Bool) (cols : List Nat) (bad : Bool)
    (now : Nat) (out : List Int) : ASide × ARow × Bool :=
  let j := if a.tpl = ti then a.passRow else 0
  let (ne, ns) := rowBytes t.wf
  let short := a.eq.length < ne ∨ a.sq.length < ns
  let e := a.eq.take ne
  let s := a.sq.take ns
  let eq := a.eq.drop ne
  let sq := a.sq.drop ns
  let pois := bad || a.ovf || decide short
  let k := if twoK t.wf then 128 else 64
  let colSum (c : Nat) : ColSum :=
    if pois then { col := c, cnt := k, pois := true }
    else (List.range k).foldl (fun cs i =>
      cs.times (operand t.wf t.ftz (elemAt t.wf.width e i) ((s[i / 32]?).getD none)) (st.at t.sf t.ftz i c))
      { col := c }
  let row : ARow := { row := (t.accBase + j) % 256, clr := t.clr, drn := t.drn, w := st.maxExp t.sf t.ftz + t.wsmax,
                      fmt := t.out, cols := cols.map colSum, out := out, set := setB, issued := now }
  ({ a with eq := eq, sq := sq, tpl := ti, passRow := if j + 1 < t.nrow then j + 1 else 0,
            ovf := a.ovf && !(eq.isEmpty && sq.isEmpty) }, row, decide short)

/-- R163: an array's rows: the physical row that carries the last logical one, given the failed rows, and D(c). -/
def lastRow (failed : List Nat) : Nat := (((List.range 66).filter fun r => !failed.contains r)[63]?).getD 65
def deskewOf (failed : List Nat) (c : Nat) : Nat := 65 - (lastRow failed - 63) - c

/-- The failed rows that a value of ARR_ROWMAP names. -/
def rowmapFailed (v : Nat) : List Nat :=
  (if v.testBit 7 then [bits v 6 0] else []) ++ (if v.testBit 15 then [bits v 14 8] else [])

/-- Whether a row of weights was issued `d` cycles before `t`, or, in BF16, one of its four passes was (R162, R163). -/
def ARow.passedAt (r : ARow) (bf : Bool) (t d : Nat) : Bool :=
  decide (r.issued + d ≤ t) && decide (t ≤ r.issued + d + (if bf then 3 else 0))

/-- R149, R162: what a mismatch of SCNT `t` in physical row `p` of the array poisons of an output row on its way. Part 0: the sum of the
column in whose cell the row's weight is. Part 3 (R180): every column of the row whose weight is in the register of column `lane`, or,
from lane 64, `lane` − 64 cycles into the skew buffer; from lane 130 of the right half. -/
def ARow.hit (r : ARow) (bf : Bool) (failed : List Nat) (t part p lane : Nat) : ARow :=
  let base := ((r.cols.map (·.col)).min?).getD 0
  let mapped := !failed.contains p && decide (p ≤ lastRow failed)
  let cell (c : Nat) : Bool := decide (base ≤ c) && (r.cols.any fun x => x.col = c) && r.passedAt bf t (p + 1 + (c - base))
  if part = 0 then
    (if mapped && cell lane then { r with cols := r.cols.map fun x => if x.col = lane then { x with pois := true } else x } else r)
  else if part = 3 && mapped && (if lane < 64 then cell lane
      else if lane < 130 then base = 0 && decide (lane - 64 ≤ p) && r.passedAt bf t (lane - 64)
      else base = 32 && decide (lane - 130 ≤ p) && r.passedAt bf t (lane - 130)) then
    { r with cols := r.cols.map fun x => { x with pois := true } }
  else r

/-- R163, R168: the sums of a row reach the accumulators. The results are the array, the roundings, the accumulators drained
with OVF set, and the drained elements by column. `hitAcc` are the columns whose accumulator a mismatch fell on, `hitCv` the
columns whose converter did. -/
def Arr.land (a : Arr) (r : ARow) (hitAcc hitCv : List Nat) : Arr × Nat × Nat × List (Nat × Option Nat) :=
  r.cols.foldl (fun (p : Arr × Nat × Nat × List (Nat × Option Nat)) cs =>
    let (a, lost, ovf, out) := p
    let key := 64 * r.row + cs.col
    let acc := if r.clr then { w := r.w } else smGet {} a.accs key
    let (acc, l) := acc.enterCol cs
    let acc := if hitAcc.contains cs.col then { acc with pois := true } else acc
    let a := { a with accs := smPut {} a.accs key acc }
    if r.drn then
      let v := if hitCv.contains cs.col then none else acc.convert r.fmt
      (a, lost + l, ovf + (if acc.ovf then 1 else 0), out ++ [(cs.col, v)])
    else (a, lost + l, ovf, out)) (a, 0, 0, [])

/-- R172: remember a row that has landed. A row that clears accumulators leaves nothing of the earlier sums in them. -/
def Arr.remember (a : Arr) (r : ARow) (t : Nat) : Arr :=
  let cols := r.cols.map (·.col)
  let keep := (a.landed.filter fun l => decide (t < l.issued + 131)).map fun l =>
    if r.clr ∧ l.row = r.row then { l with cols := l.cols.filter fun c => !cols.contains c } else l
  { a with landed := keep ++ [{ set := r.set, issued := r.issued, row := r.row, cols := cols, out := if r.drn then r.out else [] }] }

/-- R172: the accumulators of the rows of a set that landed and were issued in SCNT `since` or later are poisoned. -/
def Arr.spoil (a : Arr) (setB : Bool) (since : Nat) : Arr :=
  (a.landed.filter fun l => l.set = setB && decide (since ≤ l.issued)).foldl (fun a l =>
    l.cols.foldl (fun a c => { a with accs := smPut {} a.accs (64 * l.row + c) { smGet {} a.accs (64 * l.row + c) with pois := true } }) a) a

/-- R168, R169: the drained elements as bytes of the row's lines: each column at its own place. -/
def drainLines (f : Fmt) (out : List Int) (bad : Bool) (els : List (Nat × Option Nat)) : List (Int × Line × List Nat) :=
  let w := f.width / 8
  out.zipIdx.map fun p =>
    let mine := els.filter fun e => e.1 * w / 64 = p.2
    let at_ (i : Nat) : PByte := match mine.find? fun e => (e.1 * w) % 64 = i / w * w with
      | some e => if bad then none else e.2.map fun v => BitVec.ofNat 8 (v >>> (8 * (i % w)))
      | none => none
    (p.1, (List.range 64).map at_, mine.flatMap fun e => (List.range w).map fun k => (e.1 * w) % 64 + k)

/-- R170: activation scale bytes of a stationary tile. -/
def ATpl.scaleBytes (t : ATpl) : Nat := if t.sf = .bf16 then 0 else 64 * (if twoK t.wf then 4 else 2)

/-- R170: load cycles of the elements, and the cycle that a load by template `ti` has reached. -/
def ATpl.loadCycles (t : ATpl) : Nat := (tileBytes t.wf t.sf + 511) / 512
def Arr.loadAt (a : Arr) (ti : Nat) (t : ATpl) : Nat := if a.loadTpl = ti ∧ a.loadCyc ≤ t.loadCycles then a.loadCyc else 0

/-- Whether this load cycle is the extra one, which carries the scale bytes. -/
def Arr.scaleCycle (a : Arr) (ti : Nat) (t : ATpl) : Bool := decide (t.loadCycles ≤ a.loadAt ti t)

/-- R170: one load cycle of the inactive set: element lines, or in the last cycle the scale lines. -/
def Arr.load (a : Arr) (ti : Nat) (t : ATpl) (target : Nat) (e s : Line) : Arr :=
  let n := tileBytes t.wf t.sf
  let cyc := a.loadAt ti t
  let st := a.set target
  let st := if cyc = 0 then { st with elems := [], scales := [], loaded := false, fmt := 0 } else st
  if cyc < t.loadCycles then
    { a with sets := smPut {} a.sets target { st with elems := (st.elems ++ e).take n }, loadTpl := ti, loadCyc := cyc + 1 }
  else
    { a with sets := smPut {} a.sets target { st with scales := s.take t.scaleBytes, loaded := true }, loadTpl := ti, loadCyc := 0 }

/-! ### The matrix-vector unit -/

/-- A matrix-vector template record (R190). -/
structure MTpl where
  wf : Fmt
  vf : Fmt
  out : Fmt
  ftz : Bool
  split : Bool
  wsmax : Int
  vboff : Nat
  k : Nat
  nrow : Nat
  ebase : Nat
  vl : Nat
  ds : Nat
  vlen : Nat
  deriving DecidableEq, Repr

/-- R183: the pairs of weight and vector format that the unit accepts. -/
def mvPair (w v : Fmt) : Bool :=
  let fp8 := v = .e4m3 || v = .e5m2
  match w with
  | .e2m1 => fp8 || v = .bf16
  | .int4 => v = .int8 | .int8 => v = .int8
  | .e2m3 => fp8 || v = .bf16 | .e3m2 => fp8 || v = .bf16
  | .e4m3 => fp8 || v = .bf16 | .e5m2 => fp8 || v = .bf16
  | .bf16 => v = .bf16
  | _ => false

/-- R183: the most products of a MAC cycle. -/
def mvCeiling (w : Fmt) : Nat := if w = .e2m1 ∨ w = .int4 then 512 else if w = .bf16 then 128 else 256

/-- R190: matrix-vector template `i`, with the ranges of R185. -/
def Core.mtpl (c : Core) (i : Nat) : Option MTpl :=
  let o := 0x1000 + 64 * i
  let b (k : Nat) := c.tplNat (o + k) 1
  match Fmt.ofCode (b 0 % 16), Fmt.ofCode (b 0 / 16), Fmt.ofCode (b 1 % 16) with
  | some wf, some vf, some out =>
    let vboff := c.tplNat (o + 4) 2
    let k := c.tplNat (o + 6) 2
    let nrow := b 8
    let vlen := c.tplNat (o + 12) 2
    if mvPair wf vf && decide (b 1 % 16 ≤ 3) && decide (vboff % 64 = 0) && decide (k % 32 = 0) && decide (k ≠ 0)
        && decide (k ≤ if vf = .bf16 then 8192 else 15872) && decide (nrow ≤ 64) && decide (b 9 ≤ 63) && decide (vlen % 64 = 0) then
      some { wf := wf, vf := vf, out := out, ftz := bits (b 1) 4 4 = 1, split := bits (b 1) 5 5 = 1, wsmax := sext 8 (b 2),
             vboff := vboff, k := k, nrow := if nrow = 0 then 64 else nrow, ebase := b 9, vl := b 10 % 16, ds := b 11 % 16,
             vlen := vlen }
    else none
  | _, _, _ => none

/-- A byte of the vector buffer, which starts as zeros. -/
def Mv.byte (m : Mv) (i : Nat) : PByte := smGet (some 0) m.buf (i % 16384)

/-- The vector element k with its block exponent (R185). -/
def Mv.vec (m : Mv) (t : MTpl) (k : Nat) : Option (FV × Int) :=
  let w := t.vf.width / 8
  let bs : Line := (List.range w).map fun i => m.byte (t.vboff + k * w + i)
  operand t.vf t.ftz (elemAt t.vf.width bs 0) (m.byte (t.vboff + t.k * w + k / 32))

/-- R133, R186: the largest block exponent of the vector region. -/
def Mv.maxExp (m : Mv) (t : MTpl) : Int :=
  if t.vf = .bf16 then
    (((List.range t.k).filterMap fun k =>
      (elemAt 16 [m.byte (t.vboff + 2 * k), m.byte (t.vboff + 2 * k + 1)] 0).map fun x => bfExp (flushBf t.vf t.ftz x)).max?).getD (-126)
  else (((List.range (t.k / 32)).filterMap fun i => (m.byte (t.vboff + t.k * (t.vf.width / 8) + i)).bind fun b => scaleExp b.toNat).max?).getD 0

/-- Accumulator entry of a row of a run (R186, R190). -/
def mvKey (acc : Nat) (t : MTpl) (row : Nat) : Nat := 64 * acc + (t.ebase + row) % 64

/-- Elements of `bytes` complete bytes of weights: groups of whole bytes that hold whole elements. -/
def groupBytes (w : Fmt) : Nat := match w.width with
  | 6 => 3 | 16 => 2 | _ => 1
def groupElems (w : Fmt) : Nat := match w.width with
  | 6 => 4 | 4 => 2 | _ => 1

/-- A run whose bytes have all arrived, the padding of its last tile among them. -/
def MvRun.done (r : MvRun) : Bool := decide (r.nrow ≤ r.row) && decide (r.pad = 0)

/-- The entries of its bank that a run adds into (R186, R190). -/
def MvRun.entries (r : MvRun) : List Nat := (List.range r.nrow).map fun j => (r.ebase + j) % 64

/-- What one byte taken in a MAC cycle does to a run (R184, R186). A lane forms one product; `lane` is that of the byte's first one, and
`hits` are the lanes a mismatch fell on (R149). Results: unit, run, products formed, roundings. -/
def Mv.eatByte (m : Mv) (t : MTpl) (acc : Nat) (r : MvRun) (b : PByte) (hits : List Nat) (lane : Nat) : Mv × MvRun × Nat × Nat :=
  if r.done then (m, { r with extra := true }, 0, 0)
  else if 0 < r.pad then (m, { r with pad := r.pad - 1 }, 0, 0)
  else if 0 < r.needScales then
    (m, { r with scales := r.scales ++ [b], needScales := r.needScales - 1 }, 0, 0)
  else
    let g := r.carry ++ [b]
    if g.length < groupBytes t.wf then (m, { r with carry := g }, 0, 0)
    else
      let ge := groupElems t.wf
      let sc (k : Nat) : PByte := if t.wf = .bf16 then some 0x7F else (r.scales[k % 1024 / 32]?).getD none
      let cs := (List.range ge).foldl (fun cs i =>
        let k := r.elem + i
        let x := if hits.contains (lane + i) then none else elemAt t.wf.width g i
        cs.times (operand t.wf t.ftz x (sc k)) (m.vec t k)) ({ col := 0 } : ColSum)
      let key := mvKey acc t r.row
      let (a, lost) := (smGet {} m.accs key).enterCol cs
      let m := { m with accs := smPut {} m.accs key a }
      let el := r.elem + ge
      let rowEnd := t.k ≤ el
      let el' := if rowEnd then 0 else el
      let row' := if rowEnd then r.row + 1 else r.row
      let lay0 := !t.split && t.wf ≠ .bf16
      let nb (e : Nat) : Nat := min 32 ((t.k - e) / 32)
      let newTile := rowEnd || decide (el % 1024 = 0)
      let tileB (e : Nat) : Nat := nb e + nb e * 32 * t.wf.width / 8
      let pad := if lay0 ∧ rowEnd then (32 - tileB (r.elem / 1024 * 1024) % 32) % 32 else 0
      (m, { r with carry := [], elem := el', row := row', pad := pad,
                   scales := if newTile then [] else r.scales,
                   needScales := if lay0 ∧ newTile then nb el' else 0 }, ge, lost)

/-- One MAC cycle (R184): up to 256 bytes, element and scale bytes together, and at most the ceiling of products. In layout 1
the scale of each block comes from the scale queue. Results: unit, run, bytes taken, roundings. -/
def Mv.macGo (t : MTpl) (acc : Nat) (hits : List Nat) : Nat → Mv → MvRun → Nat → Nat → Nat → Mv × MvRun × Nat × Nat
  | 0, m, r, _, taken, lost => (m, r, taken, lost)
  | fuel + 1, m, r, prods, taken, lost =>
    let wantScale : Bool := t.split && t.wf ≠ .bf16 && !r.done && r.carry.isEmpty && r.elem % 32 = 0 && decide (r.scales.length ≤ r.elem % 1024 / 32)
    if mvCeiling t.wf ≤ prods then (m, r, taken, lost)
    else if wantScale then
      match m.sq with
      | [] => (m, r, taken, lost)
      | b :: q => Mv.macGo t acc hits fuel { m with sq := q } { r with scales := r.scales ++ [b] } prods (taken + 1) lost
    else
      match m.eq with
      | [] => (m, r, taken, lost)
      | b :: q =>
        let (m, r, p, l) := Mv.eatByte { m with eq := q } t acc r b hits prods
        Mv.macGo t acc hits fuel m r (prods + p) (taken + 1) (lost + l)

/-- R149: a mismatch in an accumulator of a bank poisons it. -/
def Mv.hitAccs (m : Mv) (acc : Nat) (es : List Nat) : Mv :=
  es.foldl (fun m e => let k := 64 * acc + e % 64; { m with accs := smPut {} m.accs k { smGet {} m.accs k with pois := true } }) m

/-- R186: one MAC cycle of template `ti` into bank `acc`; `clear` in the first cycle of MOP 0b011, `first` in the first cycle
of any word. -/
def Mv.mac (m : Mv) (ti : Nat) (t : MTpl) (acc : Nat) (clear first : Bool) (hits : List Nat) : Mv × Nat × Nat :=
  let r : MvRun := smGet {} m.runs acc
  let m := if clear then { m with accs := (List.range 64).foldl (fun a e =>
      smPut {} a (64 * acc + e) { w := m.maxExp t + t.wsmax }) m.accs } else m
  let fresh := clear || (first && (!r.live || r.tpl ≠ ti || (r.done && !r.extra)))
  let nb := min 32 (t.k / 32)
  let broken := if clear then [] else r.broken ++ (if r.live && (!r.done || r.extra) then r.entries else [])
  let r : MvRun := if fresh then { tpl := ti, ebase := t.ebase, nrow := t.nrow, live := true, broken := broken,
                                   needScales := if !t.split ∧ t.wf ≠ .bf16 then nb else 0 } else r
  let (m, r, taken, lost) := Mv.macGo t acc hits 256 m r 0 0 0
  ({ m with runs := smPut {} m.runs acc r }, taken, lost)

/-- R187: the drain of a bank: elements 0 to 63, whether a byte count was wrong, and the accumulators with OVF. Every run into the bank
since its latest drain or clear is judged. -/
def Mv.drain (m : Mv) (t : MTpl) (acc : Nat) : List (Nat × Option Nat) × Bool × Nat × Mv :=
  let r : MvRun := smGet {} m.runs acc
  let wrong : Bool := r.live && (!r.done || r.extra || m.lostBytes || !m.eq.isEmpty || !m.sq.isEmpty)
  let hurt := r.broken ++ (if wrong then r.entries else [])
  let els := (List.range 64).map fun e =>
    let a := smGet {} m.accs (64 * acc + e)
    (e, if hurt.contains e then none else a.convert t.out)
  let ovf := ((List.range 64).filter fun e => (smGet {} m.accs (64 * acc + e) : Acc).ovf).length
  (els, !hurt.isEmpty || wrong, ovf, { m with runs := smDel m.runs acc, lostBytes := false })

/-- Weight bytes reach the unit's queues of 2 KiB and 512 bytes (R184, R187). -/
def Mv.push (m : Mv) (e s : Line) : Mv × Bool :=
  let (eq, l1) := pushQ 2048 m.eq e
  let (sq, l2) := pushQ 512 m.sq s
  ({ m with eq := eq, sq := sq, lostBytes := m.lostBytes || l1 || l2 }, l1 || l2)

/-- Lines written into the vector buffer in one cycle (R185): a line that two writes reach is poisoned, which the second
result reports. -/
def Mv.writeLines (m : Mv) (ls : List (Nat × Line)) : Mv × Bool :=
  let twice (l : Nat) : Bool := decide (2 ≤ (ls.filter fun p => p.1 = l).length)
  let m := ls.foldl (fun m p => { m with buf := smPuts (some 0) m.buf ((p.2.zipIdx).map fun q =>
    ((64 * p.1 + q.2) % 16384, if twice p.1 then none else q.1)) }) m
  (m, ls.any fun p => twice p.1)

end Sys2Proof.Machine
end

