-- ==== Sys2Proof/Machine/Service.lean ====
section
/-!
DEFINITION. The service of a memory channel: bank rules (R198), refresh and scrub slots (R210, R211, R214), frozen service
(R217) and the service a controller gives on its own outside RUNNING (R228). Vault channels count time in SCNT, side
channels in line slots.
-/
namespace Sys2Proof.Machine

/-- Rounds owed (R214). -/
def State.owed (s : State) : Chan → Nat
  | .vault n c => s.fget (F.VLT_OWED_OWED c) n
  | .side k c => s.fget (F.SSK_OWED_OWED (c % 8)) k (c / 8)

def State.setOwed (s : State) (c : Chan) (v : Nat) : State :=
  match c with
  | .vault n j => s.fset (F.VLT_OWED_OWED j) n 0 (min v 255)
  | .side k j => s.fset (F.SSK_OWED_OWED (j % 8)) k (j / 8) (min v 255)

/-- R216: the effective thresholds of the refresh and rewrite configurations. -/
def State.owedHi (s : State) (c : Chan) : Nat :=
  let v := match c with
    | .vault _ _ => s.fget F.VLT_REFCFG_OWEDHI
    | .side _ _ => s.fget F.SSK_REFCFG_OWEDHI
  max 2 (min 8 v)
def State.owedLo (s : State) (c : Chan) : Nat :=
  let v := match c with
    | .vault _ _ => s.fget F.VLT_REFCFG_OWEDLO
    | .side _ _ => s.fget F.SSK_REFCFG_OWEDLO
  if s.owedHi c ≤ v then s.owedHi c - 1 else v
def State.rwHigh (s : State) (c : Chan) : Nat :=
  let v := match c with
    | .vault _ _ => s.fget F.VLT_RWQCFG_HIGH
    | .side _ _ => s.fget F.SSK_RWQCFG_HIGH
  max 1 (min 16 v)
def State.rwLow (s : State) (c : Chan) : Nat :=
  let v := match c with
    | .vault _ _ => s.fget F.VLT_RWQCFG_LOW
    | .side _ _ => s.fget F.SSK_RWQCFG_LOW
  if s.rwHigh c ≤ v then s.rwHigh c - 1 else v

/-- Whether a request of a source and unit is active. -/
def State.requested (s : State) (src unit : Nat) : Bool :=
  s.stall.reqs.any fun r => r.src = src ∧ r.unit = unit ∧ r.released = none

/-- Raise the refresh request of a channel, unless it holds one, and count it (R215, R220, R327). -/
def State.refRequest (s : State) (c : Chan) : State :=
  if s.running ∧ !s.requested 1 c.num then
    let s := match c with
      | .vault n _ => s.bump F.VLT_FRZCNT_REF n 0 1
      | .side k _ => s.bump F.SSK_FRZCNT_REF k 0 1
    s.request 1 c.half c.num
  else s

/-- R215: raise the refresh request when OWED has reached OWEDHI. -/
def State.owedRequest (s : State) (c : Chan) : State := if s.owedHi c ≤ s.owed c then s.refRequest c else s

/-- R212: raise the rewrite request when the queue has reached HIGH. -/
def State.rwRequest (s : State) (c : Chan) : State :=
  if s.running ∧ s.rwHigh c ≤ (s.chan c).rwq.length ∧ !s.requested 2 c.num then
    let s := match c with
      | .vault n _ => s.bump F.VLT_FRZCNT_RWQ n 0 1
      | .side k _ => s.bump F.SSK_FRZCNT_RWQ k 0 1
    s.request 2 c.half c.num
  else s

/-! ### Bank rules -/

/-- The lengths of the rules of R198 and R312, in the channel's time unit. -/
structure BankRules where
  close : Nat
  refresh : Nat
  scrub : Nat
  spacing : Nat
  window : Nat
  turn : Nat
  deriving DecidableEq, Repr

/-- R198. -/
def vaultRules : BankRules := { close := 29, refresh := 13, scrub := 29, spacing := 1, window := 12, turn := 3 }

/-- Whether an event lies in t − n to t − 1. -/
def within (t n : Nat) : Option Nat → Bool
  | some u => decide (u < t) && decide (t ≤ u + n)
  | none => false

/-- Whether the Row, Close, Refresh and Scrub rules let time `t` open bank `b` (`row = none`: a slot) or reach its open
row. -/
def Bank.free (r : BankRules) (b : Bank) (t : Nat) (row : Option Nat) : Bool :=
  (b.row.isNone || (row.isSome && b.row = row)) && !within t r.close b.closed && !within t r.refresh b.ref && !within t r.scrub b.scrub

/-- R198: an access at `t` to `row` of bank `bk`: the controller with the access made, or nothing where it breaks a rule. `ahead` are the
times after `t` at which the schedule opens banks in slots, which take place whatever accesses come before them (R210). -/
def VCh.access (v : VCh) (r : BankRules) (ahead : List Nat) (t bk row : Nat) (write close : Bool) : Option (VCh × Bool) :=
  let b := smGet {} v.banks bk
  let opening := b.row.isNone
  let near := (v.opens.any fun u => decide (u ≤ t) && decide (t ≤ u + r.spacing)) || ahead.any fun u => decide (u ≤ t + r.spacing)
  let many := (t :: ahead).any fun x => decide (4 < ((t :: v.opens ++ ahead).filter fun u => u ≤ x ∧ x < u + r.window).length)
  let turn := v.writes.any fun u => decide (u < t) && decide (t ≤ u + r.turn)
  if !b.free r t (some row) || (opening && (near || many)) || (!write && turn) then none
  else
    let b' := if close then { b with row := none, closed := some t } else { b with row := some row }
    some ({ v with banks := smPut {} v.banks bk b',
                   opens := (if opening then [t] else []) ++ v.opens.filter (fun u => t < u + 200),
                   writes := (if write then [t] else []) ++ v.writes.filter (fun u => t < u + 200) }, opening)

/-- An access of a page operation: R286, R287 and R291 fix the cycles of its accesses, so its own earlier accesses, made in
the times `own`, break no rule for it; every other access of the channel does (DEDUCED). -/
def VCh.accessOwn (v : VCh) (own : List Nat) (r : BankRules) (ahead : List Nat) (t bk row : Nat) (write close : Bool) : Option (VCh × Bool) :=
  let others (l : List Nat) : List Nat := l.filter fun u => !own.contains u
  let mine (o : Option Nat) : Bool := match o with
    | some u => own.contains u
    | none => false
  let banks := v.banks.map fun p => (p.1, if mine p.2.closed then { p.2 with closed := none } else p.2)
  match ({ v with opens := others v.opens, writes := others v.writes, banks := banks } : VCh).access r ahead t bk row write close with
  | some (x, o) =>
    some ({ v with banks := smPut {} v.banks bk (smGet {} x.banks bk),
                   opens := (if o then [t] else []) ++ v.opens.filter (fun u => t < u + 200),
                   writes := (if write then [t] else []) ++ v.writes.filter (fun u => t < u + 200) }, o)
  | none => none

/-! ### Slots -/

/-- A soft repair (R221): the row's stored bits, errors included, are copied into a free spare row; its address decodes to
the spare from then on. -/
def State.softRepair (s : State) (n c i : Nat) : State :=
  let e := s.rget .VLT_WEAK n (16 * c + i)
  match (s.freeSpares n c (bits e 23 20)).head? with
  | some k => (s.activate (.vault n c) (bits e 23 20) (bits e 19 10)).rset .VLT_WEAK n (16 * c + i) (setBits (setBits e 63 61 2) 2 0 k)
  | none => s

/-- The pending soft repair of a bank. -/
def State.pendingRepair (s : State) (c : Chan) (b : Nat) : Option (Nat × Nat × Nat) :=
  match c with
  | .vault n ch => ((s.weakRows n ch).find? fun p => bits p.2 63 61 = 1 ∧ bits p.2 23 20 = b).map fun p => (n, ch, p.1)
  | .side _ _ => none

/-- R219: one patrol read of a bank. -/
def State.patrolRead (s : State) (c : Chan) (b : Nat) : State :=
  let v := s.chan c
  let p := smGet 0 v.patrol b
  let wrap := p + 1 = 32 * c.rows
  let s := s.setChan c { v with patrol := smPut 0 v.patrol b (if wrap then 0 else p + 1) }
  let (_, _, s) := (s.activate c b (p / 32)).readLine c (c.rowOff b (p / 32) + 64 * (p % 32))
  if wrap then
    s.modChan c fun v => { v with swept := smPut [] v.swept b [],
                                  rewritten := v.rewritten.filter fun w => c.bankOf (32 * w - c.base) ≠ b }
  else s

/-- R211, R324: the item a scrub or service slot serves in its target bank. -/
def State.serveBank (s : State) (c : Chan) (b : Nat) : State :=
  let v := s.chan c
  let here (w : Nat) : Bool := c.bankOf (32 * w - c.base) = b
  match v.merge.find? fun e => e.readBack && here e.word with
  | some e => s.completeMerge c e
  | none =>
    match s.pendingRepair c b with
    | some (n, ch, i) => s.softRepair n ch i
    | none =>
      match v.merge.find? fun e => decide (e.data.length = 32) && here e.word with
      | some e => s.completeMerge c e
      | none =>
        match v.merge.find? fun e => decide (e.at_ + 64 ≤ s.str.scnt.toNat) && here e.word with
        | some e => (s.mergeRead c e).modChan c fun v =>
            { v with merge := v.merge.map fun x => if x.word = e.word then { x with readBack := true } else x }
        | none =>
          match v.rwq.find? fun e => here e.word with
          | some e => s.rewriteWord c e
          | none =>
            match smGet [] v.victims b with
            | r :: l => (s.setChan c { v with victims := smPut [] v.victims b l }).activate c b r
            | [] => s.patrolRead c b

/-- A slot that breaks a rule is skipped (R210). -/
def State.skipSlot (s : State) (c : Chan) (b : Nat) : State := (s.chErr c (c.rowOff b 0) 0 7).chSched c 7

/-- R214: a scheduled refresh slot of a vault channel at SCNT `t`. The rules of R198 count every slot, also one that stays idle because
its round is not owed (assumption 153). -/
def State.refreshSlot (s : State) (c : Chan) (t : Nat) : State :=
  let v := s.chan c
  let k := v.refSlots
  let b := k % 16
  let owed := s.owed c
  let starts := b = 0
  let round := if starts then decide (1 ≤ owed) else v.round
  let s := if starts ∧ round then s.setOwed c (owed - 1) else s
  let v := { v with refSlots := k + 1, round := round, returned := if starts then false else v.returned,
                    rounds := v.rounds + (if starts ∧ round then 1 else 0) }
  if (smGet {} v.banks b : Bank).free vaultRules t none then
    let bk := { (smGet {} v.banks b : Bank) with ref := some t }
    s.setChan c { v with banks := smPut {} v.banks b bk, opens := t :: v.opens.filter fun u => t < u + 200 }
  else
    let back := round && !v.returned
    let s := if back then s.setOwed c (s.owed c + 1) else s
    let s := (s.setChan c { v with returned := v.returned || round }).skipSlot c b
    if back then s.owedRequest c else s

/-- A skipped refresh slot of the pass of R578. -/
def State.refreshSkip (s : State) (c : Chan) : State :=
  let v := s.chan c
  let b := v.refSlots % 16
  let owed := s.owed c
  let starts := b = 0
  let round := if starts then decide (1 ≤ owed) else v.round
  let returned := if starts then false else v.returned
  let s := if starts ∧ round then s.setOwed c (owed - 1) else s
  let back := round && !returned
  let s := if back then s.setOwed c (s.owed c + 1) else s
  let s := s.setChan c { v with refSlots := v.refSlots + 1, round := round, returned := returned || round }
  if back then s.owedRequest c else s

/-- R211: a scheduled scrub slot of a vault channel at SCNT `t`. -/
def State.scrubSlot (s : State) (c : Chan) (t : Nat) : State :=
  let v := s.chan c
  let b := v.scrSlots % 16
  let v := { v with scrSlots := v.scrSlots + 1 }
  if (smGet {} v.banks b : Bank).free vaultRules t none then
    let bk := { (smGet {} v.banks b : Bank) with scrub := some t }
    let s := s.setChan c { v with banks := smPut {} v.banks b bk, opens := t :: v.opens.filter fun u => t < u + 200 }
    if s.chState c = CH.ONLINE then s.serveBank c b else s
  else (s.setChan c v).skipSlot c b

/-! ### Service without slots -/

/-- R217: when each of `n` rewrites begins, given their banks: two cycles apart, four in any twelve, each bank 30 cc. -/
def rewriteTimes (t0 : Nat) : List Nat → List (Nat × Nat) → List (Nat × Nat)
  | [], acc => acc
  | b :: bs, acc =>
    let last := match acc.head? with
      | some p => p.2 + 2
      | none => t0
    let four := match acc[3]? with
      | some p => p.2 + 12
      | none => t0
    let bank := match acc.find? fun p => p.1 = b with
      | some p => p.2 + 30
      | none => t0
    rewriteTimes t0 bs ((b, max last (max four bank)) :: acc)

/-- Cycles of a round of frozen refresh: 28 cc for a vault (R217), 77 for a side channel. -/
def Chan.roundLen : Chan → Nat
  | .vault _ _ => 28
  | .side _ _ => 77

/-- R220, R228: every listed victim is refreshed by opening its row. -/
def State.serveVictims (s : State) (c : Chan) : State :=
  let vs := (s.chan c).victims.flatMap fun p => p.2.map fun r => (p.1, r)
  let s := s.modChan c fun v => { v with victims := [], victimOvf := false }
  vs.foldl (fun s p => s.activate c p.1 p.2) s

/-- R217: the recorded rows are opened again. -/
def State.restoreRows (s : State) (c : Chan) : State :=
  (s.chan c).banks.foldl (fun s p => match p.2.row with
    | some r => s.activate c p.1 r
    | none => s) s

/-- R217: frozen service of one channel: its victims, its rounds and its rewrites. The second result is the stall cycle,
counted from where its timeline starts, in which its requests release. -/
def State.frozenService (s : State) (c : Chan) : State × Nat :=
  let s := s.serveVictims c
  let owed := s.owed c
  let lo := s.owedLo c
  let k := owed - lo
  let s := s.setOwed c (owed - k)
  let s := s.modChan c fun v => { v with rounds := v.rounds + k }
  let q := (s.chan c).rwq
  let m := q.length - s.rwLow c
  let ws := q.take m
  let t := 40 + c.roundLen * k
  let tail := match (rewriteTimes t (ws.map fun e => c.bankOf (32 * e.word - c.base)) []).head? with
    | some p => p.2 + 30
    | none => t
  ((ws.foldl (fun s e => s.rewriteWord c e) s).restoreRows c, tail + 42)

/-- R228: what a controller does on its own outside RUNNING: every round owed, and unless the stream is TRAPPED every merge
entry and every queued word; while TRAPPED the merge entries that the stream allocated stay. -/
def State.ownService (s : State) (c : Chan) : State :=
  let s := (s.serveVictims c).modChan c fun v => { v with rounds := v.rounds + s.owed c }
  let s := s.setOwed c 0
  if s.chState c ≠ CH.ONLINE then s
  else
    let trapped := s.str.st = .trapped
    let es := (s.chan c).merge.filter fun e => !(trapped && e.byStream)
    let s := es.foldl (fun s e => s.completeMerge c e) s
    if trapped then s else ((s.chan c).rwq).foldl (fun s e => s.rewriteWord c e) s

/-- A controller's number as its channel. -/
def chanOfNum (j : Nat) : Chan := if j < 4096 then .vault (j / 4) (j % 4) else .side ((j - 4096) / 32) ((j - 4096) % 32)

/-- The channel numbers whose OWED register is listed at a register address. -/
def owedNums (a : Nat) : List Nat :=
  let v0 := Reg.addr .VLT_OWED 0 0
  let k0 := Reg.addr .SSK_OWED 0 0
  if v0 ≤ a ∧ a < v0 + 0x4000000 ∧ (a - v0) % 0x10000 = 0 then (List.range 4).map (4 * ((a - v0) / 0x10000) + ·)
  else if k0 ≤ a ∧ a < k0 + 0x80000 ∧ (a - k0) % 0x10000 < 0x20 then
    (List.range 8).map (4096 + 32 * ((a - k0) / 0x10000) + (a - k0) % 0x10000 + ·)
  else []

/-- The channels that hold anything to serve: rounds owed, merge entries, queued words or victims. Only channels listed in the
state can hold any. -/
def State.busyChans (s : State) : List Chan :=
  let nums := (s.vch.map (·.1) ++ s.regs.flatMap fun p => owedNums p.1).eraseDups
  (nums.map chanOfNum).filter fun c =>
    let v := s.chan c
    s.owed c ≠ 0 || !v.merge.isEmpty || !v.rwq.isEmpty || !v.victims.isEmpty

/-- Channels that refresh themselves in every stream state: those being retrained (R227, R340), and those of a cluster that is not ON or
THREE (R228, R477). They need no slot and raise no request (assumption 154). -/
def State.selfRef (s : State) (c : Chan) : Bool :=
  s.chState c = CH.RETRAINING || (match c with
    | .vault n _ => (let p := s.clState (clusterOf n); p ≠ CL.ON && p ≠ CL.THREE)
    | .side _ _ => false)

/-- R228: the rounds that such a channel owes, with those of its band, are issued at once. -/
def State.ownRounds (s : State) (c : Chan) (more : Nat) : State :=
  let o := s.owed c + more
  ((s.serveVictims c).modChan c fun v => { v with rounds := v.rounds + o }).setOwed c 0

/-- R212, R215, R220, R327: while the stream is RUNNING or STALLED, the requests of the channels whose rewrite queue has reached
HIGH or whose victim list has overflowed. -/
def State.serviceRequests (s : State) : State :=
  if !s.running then s
  else s.vch.foldl (fun s p =>
    let c := chanOfNum p.1
    let s := s.rwRequest c
    if (s.chan c).victimOvf then s.refRequest c else s) s

/-- R217, R228: the controllers' own service when the stream is not RUNNING or STALLED; a frozen service that has begun ends first.
In those two states the channels raise their requests instead. The controllers of a half without clocks do nothing (R46). -/
def State.serveAll (s : State) : State :=
  if s.running then s.serviceRequests
  else (s.busyChans.filter fun c => s.clocked c.half && !s.requested 1 c.num && !s.requested 2 c.num).foldl State.ownService s

end Sys2Proof.Machine
end

