-- ==== Sys2Proof/Machine/CoreRun.lean ====
section
/-!
DEFINITION. One core in one bundle (chapters 02 to 05): its words, predicates and address generators, the loop buffer and
fetch, and what each field of its op word does. The router field and Weevil posts are in `Bundle.lean`.
-/
namespace Sys2Proof.Machine

/-! ### The op word (R64) -/

def opBits (w : BitVec 128) (hi lo : Nat) : Nat := bits w.toNat hi lo
def opRep (w : BitVec 128) : Nat := opBits w 127 120
def opFe (w : BitVec 128) : Bool := opBits w 119 119 = 1
def opPn (w : BitVec 128) : Bool := opBits w 118 118 = 1
def opPsel (w : BitVec 128) : Nat := opBits w 117 114
def opArr (w : BitVec 128) : Nat := opBits w 113 104
def opMvu (w : BitVec 128) : Nat := opBits w 103 92
def opVec (w : BitVec 128) : Nat := opBits w 91 72
/-- Scratch move slot 0 or 1 (R64: SM0 is [15:8] and SM1 [7:0] of SCR). -/
def opSm (w : BitVec 128) (k : Nat) : Nat := if k = 0 then opBits w 71 64 else opBits w 63 56
def opVp (w : BitVec 128) (c : Nat) : Nat := opBits w (40 + 4 * c + 3) (40 + 4 * c)
def opRtr (w : BitVec 128) : Nat := opBits w 39 28
def opWvi (w : BitVec 128) : Nat := opBits w 27 20
def opCop (w : BitVec 128) : Nat := opBits w 19 16
def opImm (w : BitVec 128) : Nat := opBits w 15 0

/-! ### Address generators (R119, R194) -/

/-- Generators are keyed by 16 × unit + index, the unit code of R72: 3 scratch, 4 to 7 vault channels 0 to 3. -/
def agKey (unit idx : Nat) : Nat := 16 * unit + idx

/-- Offset of a generator's record in the template tables (R73). -/
def agRec (unit idx : Nat) : Nat := if unit = 3 then 0x3000 + 64 * idx else 0x3400 + 64 * (13 * (unit - 4) + (idx - 1))

def Core.agBase (c : Core) (u i : Nat) : Nat := c.tplNat (agRec u i) 4
def Core.agStride (c : Core) (u i : Nat) : Int := sext 32 (c.tplNat (agRec u i + 4) 4)
def Core.agCount (c : Core) (u i : Nat) : Nat := let n := c.tplNat (agRec u i + 8) 4; if n = 0 then 1 else n

/-- The address of the current access, or of the access `d` later. -/
def Core.agAddr (c : Core) (u i d : Nat) : Int :=
  (c.agBase u i : Int) + c.agStride u i * (((smGet 0 c.agk (agKey u i) + d) % c.agCount u i : Nat) : Int)

/-- A generator after `x.2` accesses (R119). -/
def Core.agAdvance (c : Core) (x : Nat × Nat) : Core :=
  { c with agk := smPut 0 c.agk x.1 ((smGet 0 c.agk x.1 + x.2) % c.agCount (x.1 / 16) (x.1 % 16)) }

/-- R119: NLINE, the lines of one access, 1 or 4; other values act as 1 and raise EV_SCHED. -/
def Core.sagNline (c : Core) (i : Nat) : Nat := c.tplNat (agRec 3 i + 14) 1
def Core.sagBad (c : Core) (i : Nat) : Bool := c.sagNline i ≠ 1 && c.sagNline i ≠ 4
def Core.sagWidth (c : Core) (i : Nat) : Nat := if c.sagNline i = 4 then 4 else 1

/-- Line `j` that scratch generator `i` supplies in a cycle (R119): LSTEP lies between the lines of one access, and a unit that takes more
lines than one access has goes on with the next access (assumption 170). -/
def Core.sagLine (c : Core) (i j : Nat) : Int :=
  c.agAddr 3 i (j / c.sagWidth i) + sext 16 (c.tplNat (agRec 3 i + 12) 2) * ((j % c.sagWidth i : Nat) : Int)

/-- The first `n` lines that scratch generator `i` supplies, and the accesses that takes. -/
def Core.sagLines (c : Core) (i n : Nat) : List Int := (List.range n).map (c.sagLine i)
def Core.sagTurns (c : Core) (i n : Nat) : Nat := (n + c.sagWidth i - 1) / c.sagWidth i

/-- The accesses of generator `i` that bring a queue of `len` bytes to `need` (R165). -/
def Core.sagFeed (c : Core) (i need len : Nat) : Nat := if len < need then c.sagTurns i ((need - len + 63) / 64) else 0

/-- R163, R165: a compute cycle of template `t` (number `ti`) on a side that stood as `a`, `k` such cycles before it having been passed over:
whether it issues a row, and the accesses of the weight generators that fill the queues for that row. -/
def Core.rowCycle (c : Core) (a : ASide) (ti : Nat) (t : ATpl) (k : Nat) : Bool × Nat × Nat :=
  let (ne, ns) := rowBytes t.wf
  let feed (le ls : Nat) : Nat × Nat := if t.wsrc then (c.sagFeed t.wE ne le, c.sagFeed t.wS ns ls) else (0, 0)
  let after (g need len turns : Nat) : Nat := len + 64 * c.sagWidth g * turns - need
  let step (x : Nat × Nat × Nat) : Nat × Nat × Nat :=
    let (ph, le, ls) := x
    if ph ≠ 0 then ((ph + 1) % 4, le, ls)
    else
      let (te, ts) := feed le ls
      (if t.wf = .bf16 then 1 else 0, after t.wE ne le te, after t.wS ns ls ts)
  let x := (List.range k).foldl (fun x _ => step x) (if t.wf = .bf16 ∧ a.tpl = ti then a.bf else 0, a.eq.length, a.sq.length)
  if x.1 ≠ 0 then (false, 0, 0) else (true, feed x.2.1 x.2.2)

/-- The lines of a drained row (R168). -/
def ATpl.outLines (t : ATpl) : Nat := 64 * t.out.width / 512
/-- The scratch generators among the keys of generators. -/
def sagsOf (keys : List (Nat × Nat)) : List Nat := (keys.filter fun k => k.1 / 16 = 3).map (·.1 % 16)

/-- A vault address generator record (R194). -/
structure Vag where
  write : Bool
  pol : Nat
  ind : Bool
  unit : Nat
  sag : Nat
  isag : Nat
  ben : Nat
  mask : Nat
  deriving DecidableEq, Repr

/-- The record of generator `i` of channel `ch`; `none` where a field is outside its range (R194). -/
def Core.vag (c : Core) (ch i : Nat) (attn : Bool) : Option Vag :=
  let o := agRec (4 + ch) i
  let ctrl := c.tplNat (o + 12) 1
  let unit := c.tplNat (o + 13) 1
  let sag := c.tplNat (o + 14) 1
  let wr := decide (bits ctrl 0 0 = 1)
  let pol := bits ctrl 2 1
  let ok := decide (unit ≤ 5) && (unit ≠ 5 || attn) && (!wr || unit = 0) && pol ≠ 3 && decide (ctrl < 16) &&
    decide (c.agBase (4 + ch) i % 64 = 0) && decide (c.agBase (4 + ch) i < 0x2000000) &&
    decide (c.agStride (4 + ch) i % 64 = 0) && decide (c.agCount (4 + ch) i ≤ 16777216)
  if ok then
    some { write := wr, pol := pol, ind := decide (bits ctrl 3 3 = 1), unit := unit, sag := sag % 16, isag := sag / 16,
           ben := c.tplNat (o + 16) 8, mask := c.tplNat (o + 24) 2 }
  else none

/-! ### Blocks and words -/

/-- Device address of an offset in a core's stream region (R55). -/
def regionAddr (n off : Nat) : Nat := vaultAddr n 3 (0x1C00000 + off)

/-- The data bytes of a place in memory as they decode, without counting or logging: the image as the device holds it. The value of a
byte that does not decode is free. -/
def State.decodedNat (s : State) (a len : Nat) : Nat :=
  let w0 := a / 32
  let w1 := (a + len - 1) / 32
  let (nc, er) := match (placeOf a).chan with
    | some (c, _) => (c.nc, s.erasures c)
    | none => (3, [])
  let l := (List.range (w1 + 1 - w0)).flatMap fun i => (s.decodeWord nc (w0 + i) er).1
  leNat (((l.drop (a % 32)).take len).zipIdx.map fun p => p.1.getD (Config.undefByte 0 (2 ^ 61 + a + p.2)))

/-- A core block table entry (R57). -/
structure CoreBlk where
  woff : Nat
  wcnt : Nat
  res : Bool
  lboff : Nat
  deriving DecidableEq, Repr

def coreBlkOf (x : Nat) : CoreBlk :=
  { woff := bits x 17 0, wcnt := bits x 35 18, res := decide (bits x 36 36 = 1), lboff := bits x 48 37 }

def State.coreBlk (s : State) (n b : Nat) : CoreBlk := coreBlkOf (s.decodedNat (regionAddr n (0x1000 + 8 * b)) 8)

/-- Header fields of a core segment (R56). -/
def State.segNword (s : State) (n : Nat) : Nat := s.decodedNat (regionAddr n 16) 4
def State.segFwrap (s : State) (n : Nat) : Nat := s.decodedNat (regionAddr n 20) 4

/-- Device address of word `i` of the word area. -/
def wordAddr (n i : Nat) : Nat := regionAddr n (0x10000 + 16 * i)

/-- A controller-table block entry of half 0's copy (R58, R83). -/
structure CtlBlk where
  len : Nat
  next : Nat
  alt : Nat
  kind : Nat
  csel : Nat
  cneg : Bool
  poll : Bool
  lcount : Nat
  resv : Nat
  deriving DecidableEq, Repr

/-- Device address of an offset in a half's controller table (R115). -/
def ctlAddr (half off : Nat) : Nat := blockAddr 4 ((if half = 0 then 0x400000 else 0x500000) + off)

def ctlBlkOf (x : Nat) : CtlBlk :=
  { len := bits x 31 0, next := bits x 43 32, alt := bits x 55 44, kind := bits x 59 56, csel := bits x 71 64,
    cneg := decide (bits x 72 72 = 1), poll := decide (bits x 73 73 = 1), lcount := bits x 95 80,
    resv := bits x 63 60 + bits x 79 74 + bits x 127 96 }

def State.ctlBlk (s : State) (b : Nat) : CtlBlk := ctlBlkOf (s.nat (ctlAddr 0 (0x1000 + 16 * b)) 16)
def State.ctlStepLen (s : State) : Nat := s.nat (ctlAddr 0 16) 4
def State.ctlNblk (s : State) : Nat := s.nat (ctlAddr 0 20) 2
def State.ctlNseq (s : State) : Nat := s.nat (ctlAddr 0 22) 2
def State.ctlOutoff (s : State) : Nat := s.nat (ctlAddr 0 40) 4

/-- The word ranges of a core's resident blocks. -/
def State.resRanges (s : State) (n : Nat) : List CoreBlk :=
  ((List.range s.ctlNblk).map (s.coreBlk n)).filter fun b => b.res && b.wcnt ≠ 0

def inRanges (rs : List CoreBlk) (i : Nat) : Bool := rs.any fun b => decide (b.woff ≤ i) && decide (i < b.woff + b.wcnt)

/-- The first non-resident word at or after `i`, wrapping once at NWORD to FWRAP (R78). -/
def nextWord (rs : List CoreBlk) (nword fwrap : Nat) : Nat → Nat → Option Nat
  | 0, _ => none
  | fuel + 1, i =>
    if nword ≤ i then (if fwrap < nword then nextWord rs nword fwrap fuel fwrap else none)
    else match rs.find? fun b => b.woff ≤ i ∧ i < b.woff + b.wcnt with
      | some b => nextWord rs nword fwrap fuel (b.woff + b.wcnt)
      | none => some i

/-! ### Traps -/

/-- A core detects a stream trap (R107): it raises the request of STALLSRC bit 5; traps detected in bundle d hold the core
(R578). A core that a trap holds raises no further one. -/
def State.trap (s : State) (n cause addr due : Nat) : State :=
  if s.stall.held.any fun p => p.1 = n then s
  else
    let s := s.request 5 (halfOfCore n) n
    let t : TrapRec := { core := n, cause := cause, addr := addr, scnt := due, raised := s.cc }
    let held := if cause = 1 ∧ s.str.scnt.toNat < due then s.stall.held else s.stall.held ++ [(n, s.str.scnt.toNat)]
    { s with stall := { s.stall with traps := s.stall.traps ++ [t], held := held } }

/-- The cycles that the words of a block take before its word `i`. -/
def State.wordOff (s : State) (n : Nat) (e : CoreBlk) (i : Nat) : Nat :=
  ((List.range (i - e.woff)).map fun j => opRep (BitVec.ofNat 128 (s.decodedNat (wordAddr n (e.woff + j)) 16)) + 1).sum

/-- Whether word `i` of the word area belongs to a non-resident block and is none of its first `look`. -/
def CoreBlk.brings (e : CoreBlk) (look i : Nat) : Bool := !e.res && decide (e.woff + look ≤ i) && decide (i < e.woff + e.wcnt)

/-- R107, R578: the SCNT of the bundle due to use word `i` of a core's word area, from block `b` on, which begins at `t` and whose first
`look` words are past: NEXT and the turns of the LOOP blocks are followed, a branch as not taken (R88); `none` where that does not reach
the word. -/
def State.dueGo (s : State) (n i : Nat) : Nat → List (Nat × Nat) → Nat → Nat → Nat → Option Nat
  | 0, _, _, _, _ => none
  | fuel + 1, loops, look, b, t =>
    let e := s.coreBlk n b
    let k := s.ctlBlk b
    let c := smGet 0 loops b
    if e.brings look i then some (t + s.wordOff n e i)
    else if k.kind = 4 then none
    else if k.kind = 2 ∧ c < k.lcount then
      if k.alt = b ∧ !e.brings 0 i then s.dueGo n i fuel (smPut 0 loops b 0) 0 k.next (t + k.len * (k.lcount - c + 1))
      else s.dueGo n i fuel (smPut 0 loops b (c + 1)) 0 k.alt (t + k.len)
    else s.dueGo n i fuel (if k.kind = 2 then smPut 0 loops b 0 else loops) 0 k.next (t + k.len)

/-- The same from where the core stands: through the blocks entered since its next word was due, and on from the current one. -/
def State.dueOf (s : State) (n i : Nat) : Nat :=
  let now := s.str.scnt.toNat
  let d := ((s.stall.held.find? fun p => p.1 = n).map (·.2)).getD now
  let c := s.core n
  let start := now - s.str.off
  let before := (s.stall.path.filter fun p => decide (p.2 < start)).reverse
  let since := (before.zip (before.drop 1 ++ [(s.str.blk, start)])).filter fun p => decide (d < p.2.2)
  let look (k : Nat) : Nat := if k = 0 then c.widx else 0
  let hit := since.zipIdx.findSome? fun p =>
    let e := s.coreBlk n p.1.1.1
    if e.brings (look p.2) i then some (p.1.1.2 + s.wordOff n e i) else none
  (hit.or (s.dueGo n i 100000 s.str.loops (look since.length) s.str.blk start)).getD (Config.freeOf 4 [n, i, now])

/-! ### The word of a cycle -/

/-- R75: predicate p of a core; P0 is always true. -/
def Core.predicate (c : Core) (p : Nat) : Bool := p = 0 || c.pred.testBit p

/-- R81: what a loop-buffer word reads as: the errors standing in its code word are decoded; correctable ones are corrected and
written back, more make the word uncorrectable. A resident word that could not be read at its load is not to be trusted (R82). Words from
3,072 on are those of the fetch queue, whose bits the queue itself keeps. -/
def Core.readLb (c : Core) (i : Nat) : Option (BitVec 128) × Core :=
  let cw := i / 2
  let es := c.lberr.filter fun e => e.1 = cw
  if c.resBad.contains i then (none, c)
  else if es = [] then (some (smGet 0 c.res i), c)
  else
    match rsDecode 3 (es.foldl (fun a e => a ^^^ synOf 3 e.2.1 e.2.2) 0) [] with
    | .clean => (some (smGet 0 c.res i), { c with lberr := c.lberr.filter fun e => e.1 ≠ cw })
    | .corr _ _ => (some (smGet 0 c.res i), { c with lberr := c.lberr.filter fun e => e.1 ≠ cw })
    | _ => (none, c)

/-- Words enter the fetch queue: what stood in their bytes, and in the check bytes of their code words, is overwritten (R81). -/
def Core.queue (c : Core) (ws : List (Nat × Option (BitVec 128))) : Core :=
  let slots := (List.range ws.length).map fun k => (c.fqHead + c.fq.length + k) % 1024
  let stays (e : Nat × Nat × Nat) : Bool := !slots.any fun x =>
    e.1 = 1536 + x / 2 && (decide (e.2.1 < 3) || decide ((e.2.1 - 3) / 16 = x % 2))
  { c with fq := c.fq ++ ws, lberr := c.lberr.filter stays }

/-- The word that a core is due to take from its block `b`: the core with the word taken, or the cause of the trap that stands in its way
and the index of the word in the word area (R77, R80 to R82). -/
def State.nextOp (s : State) (n b : Nat) : (BitVec 128 × Core) ⊕ (Nat × Nat) :=
  let c := s.core n
  let e := s.coreBlk n b
  if e.res then
    match c.readLb (e.lboff + c.widx) with
    | (some w, c) => .inl (w, c)
    | (none, _) => .inr (2, e.woff + c.widx)
  else match c.fq with
    | [] => .inr (3, e.woff + c.widx)
    | (i, w) :: q =>
      if c.widx = 0 ∧ i ≠ e.woff then .inr (4, e.woff)
      else match w, c.readLb (3072 + c.fqHead) with
        | none, _ => .inr (1, i)
        | some _, (none, _) => .inr (2, i)
        | some w, (some _, c) => .inl (w, { c with fq := q, fqHead := (c.fqHead + 1) % 1024 })

/-- A core takes a word (R64, R75). -/
def Core.start (c : Core) (w : BitVec 128) : Core :=
  { c with cur := some w, left := opRep w + 1, first := true, widx := c.widx + 1, acts := c.predicate (opPsel w) != opPn w }

/-- At the first cycle of a word, the core takes it: from the resident area, or from the head of the fetch queue (R77 to
R82). A core whose words have ended stays idle. -/
def State.loadWord (s : State) (n : Nat) : State :=
  let c := s.core n
  if c.left ≠ 0 then s.setCore n { c with first := false }
  else
    let e := s.coreBlk n s.str.blk
    if e.wcnt ≤ c.widx then
      let s := s.setCore n { c with cur := none, first := false, acts := true, ranOut := true }
      if c.ranOut then s else s.schedSTR n 3
    else if s.failed n then
      -- R32, R383: a failed core fetches nothing, but its port keeps stepping its RTR fields
      s.setCore n (c.start (BitVec.ofNat 128 (s.decodedNat (wordAddr n (e.woff + c.widx)) 16)))
    else match s.nextOp n s.str.blk with
      | .inl (w, c) => s.setCore n (c.start w)
      | .inr (cause, i) => (s.setCore n { c with cur := none, first := false }).trap n cause (wordAddr n i) s.str.scnt.toNat

/-! ### Scratch ports (R117, R118) -/

/-- The array operation of a word (R65): AOP, whether the word swaps in its first cycle, and the cause of EV_SCHED where a template makes
the field idle (R161, R178, R190). A reserved AOP leaves the field idle too (R67). -/
def Core.arrOp (c : Core) (w : BitVec 128) : Nat × Bool × Nat :=
  let aop := bits (opArr w) 8 6
  let ti := bits (opArr w) 5 0
  let bad : Nat := match aop with
    | 1 | 2 | 3 => if (c.atpl ti).isNone then 5 else 0
    | 6 => if ti = 63 then 9 else match c.atpl ti, c.atpl (ti + 1) with
      | some u, some v => if u.wf ≠ v.wf ∨ u.sf ≠ v.sf then 9 else 0
      | _, _ => 5
    | _ => 0
  if aop = 7 ∨ bad ≠ 0 then (0, false, bad) else (aop, bits (opArr w) 9 9 = 1, 0)

/-- The sides that issue rows in a compute cycle: side, template number and record. -/
def Core.arrSides (c : Core) (w : BitVec 128) : List (Nat × Nat × ATpl) :=
  let ti := bits (opArr w) 5 0
  match (c.arrOp w).1, c.atpl ti, c.atpl (ti + 1) with
  | 1, some t, _ => [(0, ti, t)]
  | 3, some t, _ => [(0, ti, t)]
  | 6, some t, some u => [(0, ti, t), (1, ti + 1, u)]
  | _, _, _ => []

/-- The load of a load cycle: template number and record. -/
def Core.arrLoad (c : Core) (w : BitVec 128) : Option (Nat × ATpl) :=
  let aop := (c.arrOp w).1
  if aop = 2 ∨ aop = 3 then (c.atpl (bits (opArr w) 5 0)).map fun t => (bits (opArr w) 5 0, t) else none

def Core.side (c : Core) (i : Nat) : ASide := if i = 0 then c.arr.side0 else c.arr.side1

/-- What a cycle of an op word takes from one scratch generator: the generator, the lines, and whether the unit reads them now. -/
structure SagUse where
  gen : Nat
  n : Nat
  now : Bool := true
  deriving DecidableEq, Repr

/-- The scratch generators that the word of a cycle selects, in the order of its fields, `k` cycles of the word having been passed over
without acting. -/
def Core.sagUses (c : Core) (w : BitVec 128) (attn : Bool) (k : Nat) : List SagUse :=
  let sm := (List.range 2).filterMap fun j =>
    let sop := opSm w j / 16
    if 1 ≤ sop ∧ sop ≤ 4 then some { gen := opSm w j % 16, n := 1 } else none
  let vp := (List.range 4).flatMap fun ch =>
    let g := opVp w ch
    if 1 ≤ g ∧ g ≤ 13 then
      match c.vag ch g attn with
      | some v => if v.unit = 5 ∧ !v.write then [] else
          (if v.ind then [{ gen := v.isag, n := 1 : SagUse }] else []) ++ (if v.unit = 0 then [{ gen := v.sag, n := 1, now := v.write : SagUse }] else [])
      | none => []
    else []
  let rows := (c.arrSides w).flatMap fun x =>
    let (side, ti, t) := x
    let (issues, te, ts) := c.rowCycle (c.side side) ti t k
    (if te = 0 then [] else [{ gen := t.wE, n := te * c.sagWidth t.wE : SagUse }]) ++ (if ts = 0 then [] else [{ gen := t.wS, n := ts * c.sagWidth t.wS : SagUse }]) ++
      (if issues && t.drn then [{ gen := t.os, n := t.outLines, now := false : SagUse }] else [])
  let load := match c.arrLoad w with
    | some (ti, t) =>
      if (c.arr.loadAt ti t + k) % (t.loadCycles + 1) < t.loadCycles then [{ gen := t.ldE, n := 8 : SagUse }]
      else if t.scaleBytes = 0 then [] else [{ gen := t.ldS, n := t.scaleBytes / 64 : SagUse }]
    | none => []
  let mop := bits (opMvu w) 11 9
  let mv := match c.mtpl (bits (opMvu w) 8 3) with
    | some t => if mop = 1 then [{ gen := t.vl, n := 4 : SagUse }]
                else if mop = 4 then [{ gen := t.ds, n := 64 * t.out.width / 512, now := false : SagUse }] else []
    | none => []
  let vt := c.vtpl (bits (opVec w) 13 8)
  let vop := bits (opVec w) 19 14
  let ve := if vop = 0x1E ∧ vt.moves vop then [{ gen := vt.srcA % 16, n := 4 : SagUse }]
            else if vop = 0x1F ∧ vt.moves vop then [{ gen := vt.dst % 16, n := 4, now := false : SagUse }] else []
  sm ++ vp ++ rows ++ load ++ mv ++ ve

/-- The cycles of its word that a core has passed over without acting. -/
def Core.passed (c : Core) (w : BitVec 128) : Nat := if c.acts then 0 else opRep w + 1 - c.left

/-- The generators that a cycle of the word moves on, whether or not it acts (R76), with the accesses of each (R119): key 16 × unit + index. -/
def Core.selected (c : Core) (w : BitVec 128) (attn : Bool) : List (Nat × Nat) :=
  let sag := (c.sagUses w attn (c.passed w)).map fun u => (agKey 3 u.gen, c.sagTurns u.gen u.n)
  let vag := (List.range 4).filterMap fun ch =>
    let g := opVp w ch
    if 1 ≤ g ∧ g ≤ 13 then
      match c.vag ch g attn with
      | some v => if (v.unit = 5 ∧ !v.write) ∨ v.ind then none else some (agKey (4 + ch) g, 1)
      | none => some (agKey (4 + ch) g, 1)
    else none
  let all := sag ++ vag
  (all.map (·.1)).eraseDups.map fun k => (k, (((all.filter fun x => x.1 = k).map (·.2)).max?).getD 0)

/-- What an acting op word does to scratch in one cycle: the lines it touches, for the port count (R118). Lines that a later cycle writes are
counted then. -/
def Core.portLines (c : Core) (w : BitVec 128) (attn : Bool) (dst : Nat → Int) : List Int :=
  ((c.sagUses w attn 0).filter (·.now)).flatMap (fun u => c.sagLines u.gen u.n) ++
    ((List.range 2).filter fun k => opSm w k / 16 = 1).map dst

/-- The staging line that a word's TLD reads in its first cycle (R72). -/
def tldLine (w : BitVec 128) : List Int := if opCop w = 4 then [((64 * bits (opImm w) 5 0 : Nat) : Int)] else []

/-- The scratch lines that effects due in SCNT `t` write. -/
def dueLines (t : Nat) (evs : List CoreEv) : List Int := evs.flatMap fun e => match e with
  | .vault 0 l _ => [l]
  | .lines ls => ls.map (·.1)
  | .arow r => if r.drn ∧ r.issued + 132 ≤ t then r.out else []
  | _ => []

/-- The bank of a scratch offset (R116). -/
def scrBank (x : Int) : Int := x / 0x20000

/-- Whether a line offset lies in scratch (R120). -/
def inScratch (x : Int) : Bool := decide (0 ≤ x) && decide (x < 0x180000)

/-- R118: the banks that more than two accesses reach. An absent access reaches none (R120). -/
def overBanks (lines : List Int) : List Int :=
  let ls := lines.filter inScratch
  ((ls.map scrBank).eraseDups).filter fun b => decide (2 < (ls.filter fun x => scrBank x = b).length)

/-- R118: the record of a bank conflict, once a cycle, at the lowest line involved. -/
def State.bankConflict (s : State) (n : Nat) (ovr : List Int) (ls : List Int) : State :=
  match ((ls.filter fun x => ovr.contains (scrBank x)).min?) with
  | some x => (s.errCOR n (scratchAddr n (unsext 21 x)) ST.BANKCONF 1).sched n 5 1
  | none => s

/-- A unit's read of a scratch line in a cycle. -/
def State.portRead (s : State) (n : Nat) (ovr : List Int) (x : Int) : Line × State :=
  if ovr.contains (scrBank x) then (List.replicate 64 none, s) else s.readScratch n x

def State.portReads (s : State) (n : Nat) (ovr : List Int) (xs : List Int) : Line × State :=
  xs.foldl (fun (p : Line × State) x => let (d, s) := p.2.portRead n ovr x; (p.1 ++ d, s)) (([] : Line), s)

/-- A unit's write of bytes of a scratch line in a cycle. A core whose results are poisoned until the boundary (R578) writes
poison. -/
def State.portWrite (s : State) (n : Nat) (ovr : List Int) (x : Int) (d : Line) (en : Nat → Bool) : State :=
  if ovr.contains (scrBank x) then s
  else s.writeScratch n x (if (s.core n).stepPois then List.replicate 64 none else d) en

/-! ### Effects due in a cycle -/

/-- Poison the array rows in flight that used a set and were issued at `from` or later (R172). -/
def poisonRows (evs : List (Nat × CoreEv)) (setB : Bool) (since : Nat) : List (Nat × CoreEv) :=
  evs.map fun e => match e.2 with
    | .arow r => if r.set = setB ∧ since ≤ r.issued then
        (e.1, .arow { r with cols := r.cols.map fun c => { c with pois := true } }) else e
    | _ => e

/-- The same for the lines of rows that have landed and wait to be written. -/
def poisonDrains (evs : List (Nat × CoreEv)) (rows : List Landed) : List (Nat × CoreEv) :=
  evs.map fun e => match e.2 with
    | .lines ls => if rows.any fun l => e.1 = l.issued + 132 ∧ ls.map (·.1) = l.out then
        (e.1, .lines (ls.map fun p => (p.1, List.replicate 64 none, p.2.2))) else e
    | _ => e

/-- R172: everything that rows issued with a set in SCNT `since` or later have reached or will reach is poisoned. -/
def Core.spoilSet (c : Core) (setB : Bool) (since : Nat) : Core :=
  let rows := c.arr.landed.filter fun l => l.set = setB && decide (since ≤ l.issued)
  { c with arr := c.arr.spoil setB since, evts := poisonDrains (poisonRows c.evts setB since) rows }

/-- The residue hits of this bundle on one unit of a core (R149), by part. -/
def hitsOf (hs : List ResHit) (n unit part : Nat) : List Nat :=
  (hs.filter fun h => h.core = n ∧ h.unit = unit ∧ h.part = part).map (·.lane)

/-- R149: whether the parity of an address generator (LANE 16 × unit code + index), or of a template record (LANE 64 × 0 array, 1 matrix-vector
unit, 2 vector unit, + entry), fails in this bundle. -/
def genHit (hs : List ResHit) (n key : Nat) : Bool := hs.any fun h => h.core = n && h.unit = 4 && h.lane = key
def tplHit (hs : List ResHit) (n table e : Nat) : Bool := hs.any fun h => h.core = n && h.unit = 5 && h.lane = 64 * table + e

/-- Lines that a unit reads with a scratch generator; an access whose generator fails its check is poisoned. -/
def State.sagReads (s : State) (n : Nat) (ovr : List Int) (hs : List ResHit) (g : Nat) (xs : List Int) : Line × State :=
  let (d, s) := s.portReads n ovr xs
  (if genHit hs n (agKey 3 g) then List.replicate d.length none else d, s)

/-- R149: mismatches in the array fall on the rows on their way and on the accumulators. -/
def State.arrayHits (s : State) (n : Nat) (hs : List ResHit) (t : Nat) : State :=
  let mine := hs.filter fun h => h.core = n && h.unit = 1
  if mine.isEmpty then s
  else
    let f := rowmapFailed (s.rget .ARR_ROWMAP n)
    let c := s.core n
    let evts := c.evts.map fun e => match e.2 with
      | .arow r => (e.1, .arow (mine.foldl (fun r h => r.hit (decide (e.1 = r.issued + 132)) f t h.part h.row h.lane) r))
      | _ => e
    let accs := (mine.filter fun h => h.part = 1).foldl (fun a h =>
      let k := 64 * (h.row % 256) + h.lane % 64
      smPut {} a k { smGet {} a k with pois := true }) c.arr.accs
    s.setCore n { c with evts := evts, arr := { c.arr with accs := accs } }

/-- The attention engine of a core. -/
def State.saeOf (s : State) (n : Nat) : Sae := smGet {} s.sae n
def State.setSae (s : State) (n : Nat) (v : Sae) : State := { s with sae := smPut {} s.sae n v }

/-- The line of a walk's access reaches the engine (R197). -/
def State.saeTake (s : State) (n key : Nat) (d : Line) : State :=
  let x := s.saeOf n
  s.setSae n { x with lines := smPut [] x.lines key d }

/-- Carry out the effects of a core that fall in SCNT `t`: those that units see in this cycle. -/
def State.dueEffect (s : State) (n : Nat) (ovr : List Int) (hs : List ResHit) (t : Nat) (e : CoreEv) : State :=
  let c := s.core n
  match e with
  | .vault unit l d =>
    if unit = 5 then s.saeTake n l.toNat d
    else if unit = 1 ∨ unit = 2 then
      let (a, lost) := c.arr.side0.push (if unit = 1 then d else []) (if unit = 2 then d else [])
      let s := s.setCore n { c with arr := { c.arr with side0 := a } }
      if lost then s.schedARR n 0 6 else s
    else if unit = 3 ∨ unit = 4 then
      let (m, lost) := c.mv.push (if unit = 3 then d else []) (if unit = 4 then d else [])
      let s := s.setCore n { c with mv := m }
      if lost then s.schedARR n 1 7 else s
    else s
  | .vreg r bs =>
    let old := c.vr r
    let new := old.zipIdx.map fun p => match bs.find? fun b => b.1 = p.2 with
      | some b => if c.stepPois then none else b.2
      | none => p.1
    s.setCore n { c with vreg := smPut (List.replicate 256 (some 0)) c.vreg r new }
  | .fetch ws => s.setCore n (c.queue ws)
  | .arow r =>
    let acc := (hs.filter fun h => h.core = n ∧ h.unit = 1 ∧ h.part = 1 ∧ h.row = r.row).map (·.lane)
    let (a, lost, ovf, els) := c.arr.land r acc (hitsOf hs n 1 2)
    let evs := if r.drn then c.evts ++ [(r.issued + 132, .lines (drainLines r.fmt r.out r.outBad els))] else c.evts
    ((s.setCore n { c with arr := a.remember r t, evts := evs }).bump F.COR_LOSTPREC_COUNT n 0 lost).bump F.COR_ACCOVF_COUNT n 0 ovf
  | .topkIns k cs p => s.setCore n { c with topk := tkMerge k c.topk cs, topkPois := c.topkPois || p }
  | .topkOut => s.setCore n { c with topk := [], topkPois := false }
  | .lines _ => let _ := ovr; s
  | .cmp _ => s

/-- The part of the due effects that becomes visible after this cycle: lines written into scratch and the compare flag. -/
def State.lateEffect (s : State) (n : Nat) (ovr : List Int) (e : CoreEv) : State :=
  match e with
  | .vault 0 l d => s.portWrite n ovr l d fun _ => true
  | .lines ls => ls.foldl (fun s p => s.portWrite n ovr p.1 p.2.1 fun i => p.2.2.contains i) s
  | .cmp f => s.setCore n { s.core n with cmpFlag := f }
  | _ => s

/-! ### Core control (R72) -/

/-- TLD: reload a template from a staging line; its generator returns to its base. The value of a poisoned byte is free (R159). A code that
names no record changes nothing and raises EV_SCHED (assumption 171). -/
def State.tld (s : State) (n : Nat) (ovr : List Int) : State :=
  let c := s.core n
  match c.cur with
  | none => s
  | some w =>
    let imm := opImm w
    let unit := bits imm 15 12
    let e := bits imm 11 6
    let off : Option Nat := match unit with
      | 0 => some (64 * e) | 1 => some (0x1000 + 64 * e) | 2 => some (0x2000 + 64 * e)
      | 3 => if e < 16 then some (agRec 3 e) else none
      | u => if u ≤ 7 ∧ 1 ≤ e ∧ e ≤ 13 then some (agRec u e) else none
    match off with
    | none => s.schedSTR n 2
    | some o =>
      let (d, s) := s.portRead n ovr (64 * bits imm 5 0 : Nat)
      let (b, s) := s.reveal d
      let c := s.core n
      let c := { c with tpl := smPuts 0 c.tpl (b.zipIdx.map fun p => (o + p.2, p.1)) }
      s.setCore n (if 3 ≤ unit then { c with agk := smPut 0 c.agk (agKey unit e) 0 } else c)

/-- AGRST. A code that names no generator changes nothing and raises EV_SCHED (assumption 171). -/
def State.agrst (s : State) (n : Nat) : State :=
  let c := s.core n
  match c.cur with
  | none => s
  | some w =>
    let unit := bits (opImm w) 15 12
    let i := bits (opImm w) 11 8
    if unit = 3 ∨ 4 ≤ unit ∧ unit ≤ 7 ∧ 1 ≤ i ∧ i ≤ 13 then s.setCore n { c with agk := smPut 0 c.agk (agKey unit i) 0 }
    else s.schedSTR n 2

/-- The COP field in a word's first cycle; TLD and AGRST act at its end (assumption 172). -/
def State.copField (s : State) (n : Nat) (w : BitVec 128) : State :=
  let c := s.core n
  let imm := opImm w
  let p := imm % 16
  let setP (s : State) (v : Bool) : State :=
    s.setCore n { (s.core n) with pred := setBits (s.core n).pred p p (if v then 1 else 0) }
  match opCop w with
  | 1 => if p = 0 then s else match c.cmpFlag with
    | some f => setP s f
    | none => (setP s false).bump F.COR_PPOIS_COUNT n 0 1
  | 2 => if p = 0 then s else setP s (smGet false s.str.mbxmask (bits imm 13 4))
  | 3 =>
    let k := s.ctlBlk s.str.blk
    if p ≠ 0 ∧ c.predicate p ∧ s.str.off + 81 ≤ k.len then
      { s with str := { s.str with cond := s.str.cond ||| 2 ^ bits imm 7 4 } }
    else s
  | 4 => s
  | 5 => s
  | 6 => if s.flag F.STR_DEBUG_BRKEN ∧ s.flag F.STR_DEBUG_DBGEN then s.request 4 (halfOfCore n) (1 + n) else s
  | 0 => s
  | _ => s.schedSTR n 2

/-- The end of a word's first cycle: TLD and AGRST take effect after the other fields of the cycle. -/
def State.copEnd (s : State) (n : Nat) (ovr : List Int) (w : BitVec 128) : State :=
  if opCop w = 4 then s.tld n ovr else if opCop w = 5 then s.agrst n else s

/-! ### The page walk of the attention engine (R260) -/

/-- Scratch offset of the job record in hand. -/
def State.saeRecord (s : State) (n : Nat) : Nat := s.fget F.KVP_SAEJOB_OFF n + 64 * (s.saeOf n).next

/-- R262: the length of an engine's call in cc: `rows` query rows, `npres` pages reserved, `nnew` new positions. -/
def saeCost (bf16 : Bool) (rows npres nnew : Nat) : Nat :=
  48 + npres * max 64 ((if bf16 then 8 else 4) * rows) + (if rows * nnew ≤ 128 then 0 else (rows * nnew + 15) / 16 - 8)

/-- R260, R262, R263: a call begins with its first access, in SCNT `t`: its record and its segment descriptor are read, which fix its last
cycle, and the licence decides whether its output will be poisoned. -/
def State.saeBegin (s : State) (n t : Nat) : State :=
  if (s.saeOf n).call.isSome then s
  else
    let (l, s) := s.scratchBytes n (s.saeRecord n) 64
    let (job, s) := s.reveal l
    let v (b : List Byte) (o k : Nat) : Nat := leNat ((b.drop o).take k)
    let (m, s) := s.scratchBytes n (v job 0 4) 320
    let (desc, s) := s.reveal m
    let hurt (l : Line) : Bool := l.any (·.isNone)
    let cost := saeCost ((v desc 7 1).testBit 4) (v job 22 1 * v job 23 1) (v job 20 2) (v job 24 1)
    let call : SaeCall :=
      { last := t + cost - 1
        job := job
        desc := desc
        pois := hurt l || hurt (m.take 64) || hurt ((m.drop 64).take (2 * min 128 (v desc 10 2)))
        lapsed := !(s.fget F.LIC_STAT_INFORCE).testBit 1 }
    s.setSae n { s.saeOf n with call := some call }

/-- What an access of the walk finds: the place of its line in the call, the scratch offset of the page-list entry, and the line's
channel offset where the segment has the page. -/
def State.saeWalk (s : State) (n ch : Nat) : Nat × Nat × Option Nat :=
  let i := smGet 0 (s.saeOf n).walk ch
  let e := i / 64
  let key := 256 * e + 4 * (i % 64) + ch
  match (s.saeOf n).call with
  | none => (key, 0, none)
  | some c =>
    let ent := leNat (c.job.take 4) + 64 + 2 * e
    let p := leNat ((c.desc.drop (64 + 2 * e)).take 2)
    (key, ent, if e < leNat ((c.desc.drop 10).take 2) ∧ e < 128 ∧ p < min 7168 (s.fget F.KVP_POOL_NPAGE n) then
      some (4096 * s.fget F.KVP_POOL_POOLOFF n + 4096 * p + 64 * (i % 64)) else none)

/-- The walk of a channel moves on. -/
def State.saeStep (s : State) (n ch : Nat) : State :=
  let x := s.saeOf n
  s.setSae n { x with walk := smPut 0 x.walk ch (smGet 0 x.walk ch + 1) }


/-! ### The schedule ahead (R198) -/

/-- R86: the condition of a BRANCH block. -/
def State.branchCond (s : State) (k : CtlBlk) : Bool :=
  let c := if k.csel < 16 then s.str.cond.testBit k.csel
    else if k.csel = 16 then s.str.taken
    else s.str.hostLatch.testBit (k.csel - 32)
  c != k.cneg

/-- The block after `b`, and the loop turns then taken (R84 to R86). -/
def State.nextBlk (s : State) (b : Nat) (loops : List (Nat × Nat)) : Option (Nat × List (Nat × Nat)) :=
  let k := s.ctlBlk b
  let c := smGet 0 loops b
  match k.kind with
  | 1 => some (if s.branchCond k then k.alt else k.next, loops)
  | 2 => if c < k.lcount then some (k.alt, smPut 0 loops b (c + 1)) else some (k.next, smPut 0 loops b 0)
  | 4 => none
  | _ => some (k.next, loops)

/-- The SCNT values of the next `fuel` cycles whose word gives channel `ch` a service slot; `left` cycles of `cur` remain after SCNT `t`. -/
def State.slotsGo (s : State) (n ch : Nat) : Nat → Nat → Nat → Nat → List (Nat × Nat) → Nat → Option (BitVec 128) → Nat → List Nat
  | 0, _, _, _, _, _, _, _ => []
  | fuel + 1, t, b, off, loops, widx, cur, left =>
    let here := if off + 1 < (s.ctlBlk b).len then some (b, off + 1, loops, widx, cur, left)
      else (s.nextBlk b loops).map fun x => (x.1, 0, x.2, 0, none, 0)
    match here with
    | none => []
    | some (b, off, loops, widx, cur, left) =>
      let e := s.coreBlk n b
      let (widx, cur, left) := if left ≠ 0 then (widx, cur, left)
        else if e.wcnt ≤ widx then (widx, none, 0)
        else let w := BitVec.ofNat 128 (s.decodedNat (wordAddr n (e.woff + widx)) 16); (widx + 1, some w, opRep w + 1)
      let slot := match cur with
        | some w => decide (14 ≤ opVp w ch)
        | none => false
      (if slot then [t + 1] else []) ++ s.slotsGo n ch fuel (t + 1) b off loops widx cur (left - 1)

/-- The refresh and scrub slots of a vault channel in the 11 cycles after SCNT `t`, as the words to come have them. -/
def State.slotsAhead (s : State) (n ch t : Nat) : List Nat :=
  let c := s.core n
  if s.failed n || s.stall.held.any fun p => p.1 = n then []
  else s.slotsGo n ch 11 t s.str.blk s.str.off s.str.loops c.widx c.cur (c.left - 1)

/-! ### Vault ports -/

/-- One access of generator `g` of channel `ch` at SCNT `t` (R194 to R199). -/
def State.vaultAccess (s : State) (n ch g : Nat) (ovr : List Int) (t : Nat) (hs : List ResHit) : State :=
  let c := s.core n
  let cn := Chan.vault n ch
  match c.vag ch g (n % 8 = 0) with
  | none => (s.errVLT n (cn.base + c.agBase (4 + ch) g % 0x2000000) 0 6).sched n 11 6
  | some v =>
    let sae := v.unit = 5 && !v.write
    let s := if sae then s.saeBegin n t else s
    let parity := (if v.ind then false else genHit hs n (agKey (4 + ch) g)) || (v.unit = 0 && genHit hs n (agKey 3 v.sag))
    let deliver (s : State) (d : Line) : State :=
      let c := s.core n
      let d := if parity then List.replicate 64 none else d
      if sae then
        let key := (s.saeWalk n ch).1
        (s.setCore n { c with evts := c.evts ++ [(t + 20, .vault 5 key d)] }).saeStep n ch
      else s.setCore n { c with evts := c.evts ++ [(t + 20, .vault v.unit (c.sagLine v.sag 0) d)] }
    let poison (s : State) : State := if v.write then s else deliver s (List.replicate 64 none)
    let perform (s : State) (off : Nat) (close : Bool) : State :=
      let vc := s.chan cn
      match vc.access vaultRules (s.slotsAhead n ch t) t (cn.bankOf off) (cn.rowOf off) v.write close with
      | none => poison ((s.chErr cn off ST.BANKCONF 1).chSched cn 1)
      | some (vc, opening) =>
        let s := s.setChan cn vc
        let s := if opening then s.activate cn (cn.bankOf off) (cn.rowOf off) else s
        if v.write then
          let (d, s) := s.portRead n ovr (c.sagLine v.sag 0)
          let d := if parity ∨ c.stepPois then List.replicate 64 none else d
          s.writeLine cn off d fun i => v.ben = 0 || v.ben.testBit i
        else let (d, _, s) := s.readLine cn off; deliver s d
    if sae then
      match s.saeWalk n ch with
      | (_, _, none) => s.saeStep n ch
      | (_, ent, some off) =>
        if 0x2000000 ≤ off then poison (s.errKVP n (scratchAddr n ent) ST.ABSENT 3)
        else if v.mask ≠ 0 ∧ !v.mask.testBit (cn.bankOf off) then poison ((s.chErr cn off ST.BANKCONF 1).chSched cn 1)
        else if !s.chPresent cn off then (let (d, _, s) := s.readLine cn off; deliver s d)
        else perform s off true
    else if v.ind then
      let x := c.sagLine v.isag 0
      let (d, s) := s.sagReads n ovr hs v.isag [x]
      match lineNat (d.take 4) with
      | none => poison (s.errCOR n (scratchAddr n (unsext 21 x)) ST.ABSENT 4)
      | some o =>
        let off := o / 64 * 64
        if 0x2000000 ≤ off then poison (s.chErr cn (off % 0x2000000) ST.ABSENT 3)
        else if v.mask ≠ 0 ∧ !v.mask.testBit (cn.bankOf off) then poison ((s.chErr cn off ST.BANKCONF 1).chSched cn 1)
        else if !s.chPresent cn off then
          (if v.write then s.chErr cn off ST.ABSENT 3 else let (d, _, s) := s.readLine cn off; deliver s d)
        else perform s off true
    else
      let x := c.agAddr (4 + ch) g 0
      let nx := c.agAddr (4 + ch) g 1
      if x < 0 ∨ 0x2000000 ≤ x then poison (s.chErr cn (unsext 25 x) ST.ABSENT 3)
      else
        let off := x.toNat
        let nxt := nx.toNat
        let close := v.pol = 1 || (v.pol = 2 &&
          (decide (nx < 0) || decide (0x2000000 ≤ nx) || cn.bankOf off ≠ cn.bankOf nxt || cn.rowOf off ≠ cn.rowOf nxt))
        if !s.chPresent cn off then
          (if v.write then s.chErr cn off ST.ABSENT 3 else let (d, _, s) := s.readLine cn off; deliver s d)
        else perform s off close

/-- A vault-port field that does not act: its generator moves on with the others, the engine's page walk too (R76, R260). -/
def State.vpPass (s : State) (n ch : Nat) (w : BitVec 128) (t : Nat) : State :=
  match (s.core n).vag ch (opVp w ch) (n % 8 = 0) with
  | some v => if 1 ≤ opVp w ch ∧ opVp w ch ≤ 13 ∧ v.unit = 5 ∧ !v.write then (s.saeBegin n t).saeStep n ch else s
  | none => s

/-- The vault-port field of one channel. -/
def State.vpField (s : State) (n ch : Nat) (w : BitVec 128) (acts : Bool) (ovr : List Int) (t : Nat) (hs : List ResHit) : State :=
  match opVp w ch with
  | 0 => s
  | 14 => s.refreshSlot (.vault n ch) t
  | 15 => s.scrubSlot (.vault n ch) t
  | g => if acts then s.vaultAccess n ch g ovr t hs else s.vpPass n ch w t

/-! ### Fetch (R78, R82) -/

/-- The words that fetch takes with its next access: from the word `p` on; and the access after it. -/
def fetchGroup (rs : List CoreBlk) (nword p : Nat) : List Nat :=
  ((List.range 4).map (p / 4 * 4 + ·)).filter fun i => decide (p ≤ i) && decide (i < nword) && !inRanges rs i

/-- Channel offset of the beat that holds a word. -/
def beatOff (p : Nat) : Nat := 0x1C00000 + 0x10000 + 64 * (p / 4)

/-- One beat of fetch in a cycle whose word has FE = 1 and VP3 idle. It obeys R198 as every access does; it leaves its row open unless the
next beat lies in another row or bank (assumption 173). -/
def State.fetchBeat (s : State) (n t : Nat) : State :=
  let c := s.core n
  let cn := Chan.vault n 3
  let nword := s.segNword n
  let rs := s.resRanges n
  match nextWord rs nword (s.segFwrap n) 8192 c.fptr with
  | none => s
  | some p =>
    let ws := fetchGroup rs nword p
    let inflight := (c.evts.map fun e => match e.2 with
      | .fetch l => l.length
      | _ => 0).sum
    if 1024 < c.fq.length + inflight + ws.length then s
    else
      let off := beatOff p
      let close := match nextWord rs nword (s.segFwrap n) 8192 (p / 4 * 4 + 4) with
        | some q => cn.bankOf off ≠ cn.bankOf (beatOff q) || cn.rowOf off ≠ cn.rowOf (beatOff q)
        | none => true
      let (d, s) : Line × State :=
        if !s.chPresent cn off then let (d, _, s) := s.readLine cn off; (d, s)
        else match (s.chan cn).access vaultRules (s.slotsAhead n 3 t) t (cn.bankOf off) (cn.rowOf off) false close with
          | none => (List.replicate 64 none, (s.chErr cn off ST.BANKCONF 1).chSched cn 1)
          | some (v, opening) =>
            let s := s.setChan cn v
            let s := if opening then s.openRow cn off else s
            let (d, _, s) := s.readLine cn off
            (d, s)
      let beat := ws.map fun i => (i, (lineNat ((d.drop (16 * (i % 4))).take 16)).map (BitVec.ofNat 128))
      let c := s.core n
      let s := s.setCore n { c with fptr := p / 4 * 4 + 4, evts := c.evts ++ [(t + 20, .fetch beat)] }
      match beat.find? fun b => b.2.isNone with
      | some (i, _) => s.trap n 1 (wordAddr n i) (s.dueOf n i)
      | none => s

/-! ### Scratch moves (R68) -/

/-- One scratch move slot. The spec names one generator and no second address for a move from scratch to scratch or to the vector
buffer: its destination line is a free value (assumptions 12 and 24). A line for a full inject buffer is lost, an empty eject buffer gives
poison, and both raise EV_SCHED (R47). The second result is the line of the vector buffer that the move writes and its data. -/
def State.smField (s : State) (n k : Nat) (w : BitVec 128) (ovr : List Int) (hs : List ResHit) (dst : Int) : State × Option (Nat × Line) :=
  let c := s.core n
  let g := opSm w k % 16
  let x := c.sagLine g 0
  match opSm w k / 16 with
  | 1 => let (d, s) := s.sagReads n ovr hs g [x]; (s.portWrite n ovr dst d fun _ => true, none)
  | 2 =>
    let (d, s) := s.sagReads n ovr hs g [x]
    let c := s.core n
    (if c.inj.length < 4 then s.setCore n { c with inj := c.inj ++ [{ data := d }] } else s.sched n 5 0, none)
  | 3 => match c.ej with
    | [] => ((s.portWrite n ovr x (List.replicate 64 none) fun _ => true).sched n 5 0, none)
    | l :: q =>
      let d := if genHit hs n (agKey 3 g) then List.replicate 64 none else l.data
      ((s.setCore n { c with ej := q }).portWrite n ovr x d fun _ => true, none)
  | 4 => let (d, s) := s.sagReads n ovr hs g [x]; (s, some ((dst / 64 % 256).toNat, d))
  | _ => (s, none)

/-! ### The array (R161 to R180) -/

/-- The ramp state after a cycle whose AOP is `aop` (R173, R174): state, cycles into the ramp, level, and whether the ramp was
misused. While a ramp goes on the level is that of its latest cycle; the state it ends in gives its own. -/
def rampStep (s : State) (st i aop : Nat) : Nat × Nat × Nat × Bool :=
  let entry (j : Nat) : Nat := (if j < 16 then s.rget .ARR_RAMP0 >>> (4 * j) % 16 else s.rget .ARR_RAMP1 >>> (4 * (j - 16)) % 16) + 1
  let broke := (st = 1 ∧ aop ≠ 4) ∨ (st = 3 ∧ aop ≠ 5)
  let st' := if broke then (if st = 1 then 0 else 2) else st
  match st', aop with
  | 0, 4 => (1, 1, entry 0, decide broke)
  | 1, 4 => if i = 31 then (2, 0, 16, false) else (1, i + 1, entry i, false)
  | 2, 4 => (2, 0, 16, true)
  | 2, 5 => (3, 1, entry 31, decide broke)
  | 3, 5 => if i = 31 then (0, 0, 0, false) else (3, i + 1, entry (31 - i), false)
  | 0, 5 => (0, 0, 0, true)
  | 2, _ => (2, 0, 16, decide broke)
  | _, _ => (0, 0, 0, decide broke)

/-- One load cycle of the inactive set `tgt` (R170, R172). -/
def State.arrLoad (s : State) (n ti : Nat) (tp : ATpl) (tgt : Nat) (ovr : List Int) (t : Nat) (hs : List ResHit) : State :=
  let c := s.core n
  let sc := c.arr.scaleCycle ti tp
  let (d, s) := if sc then s.sagReads n ovr hs tp.ldS (c.sagLines tp.ldS (tp.scaleBytes / 64)) else s.sagReads n ovr hs tp.ldE (c.sagLines tp.ldE 8)
  let d := if tplHit hs n 0 ti then List.replicate d.length none else d
  let begins := c.arr.loadCyc = 0 ∨ c.arr.loadTpl ≠ ti
  let busy := if tgt = 0 then c.arr.busyA else c.arr.busyB
  let early := decide (begins ∧ t < busy)
  let c := s.core n
  let c := { c with arr := c.arr.load ti tp tgt (if sc then [] else d) (if sc then d else []) }
  let s := s.setCore n (if early then c.spoilSet (tgt = 1) (t - 130) else c)
  if early then s.schedARR n 0 4 else s

/-- One compute cycle of a side (R162, R163, R165, R178); `c0` is the core as the cycle found it. -/
def State.arrIssue (s : State) (n : Nat) (c0 : Core) (x : Nat × Nat × ATpl) (act : Nat) (cols : List Nat) (ovr : List Int) (t : Nat)
    (hs : List ResHit) : State :=
  let (side, ti, tp) := x
  let put (s : State) (a : ASide) : State :=
    let c := s.core n
    s.setCore n { c with arr := if side = 0 then { c.arr with side0 := a } else { c.arr with side1 := a } }
  let a := (s.core n).side side
  let (issues, te, ts) := c0.rowCycle (c0.side side) ti tp 0
  if !issues then put s { a with bf := (a.bf + 1) % 4 }
  else
    let (e, s) := s.sagReads n ovr hs tp.wE (c0.sagLines tp.wE (te * c0.sagWidth tp.wE))
    let (sc, s) := s.sagReads n ovr hs tp.wS (c0.sagLines tp.wS (ts * c0.sagWidth tp.wS))
    let (a, lost) := a.push e sc
    let c := s.core n
    let bad := c.arr.badSwap || tplHit hs n 0 ti
    let (a, row, short) := a.issue ti tp (c.arr.set act) (act = 1) cols bad t (c.sagLines tp.os tp.outLines)
    let row := { row with outBad := genHit hs n (agKey 3 tp.os) }
    let s := put s { a with bf := if tp.wf = .bf16 then 1 else 0 }
    let c := s.core n
    let s := s.setCore n { c with evts := c.evts ++ [(if tp.wf = .bf16 then t + 132 else t + 129, .arow row)] }
    if short || lost then s.schedARR n 0 6 else s

/-- The array's cycle; `c0` is the core as the cycle found it. -/
def State.arrField (s : State) (n : Nat) (w : Option (BitVec 128)) (c0 : Core) (ovr : List Int) (t : Nat) (hs : List ResHit) : State :=
  let (aop, swaps, bad) := match w with
    | some w => c0.arrOp w
    | none => (0, false, 0)
  let swap := swaps && c0.first
  let s := if bad = 0 then s else s.schedARR n 0 bad
  let st := s.fget F.ARR_STAT_RAMP n
  let lvl := s.fget F.ARR_STAT_LEVEL n
  if aop = 0 ∧ !swap ∧ st ≠ 1 ∧ st ≠ 3 ∧ lvl = (if st = 2 then 16 else 0) then s
  else
    let c := s.core n
    let (st', i', lvl', misuse) := rampStep s st c.arr.rampI aop
    let s := if misuse then s.schedARR n 0 2 else s
    let s := (s.fset F.ARR_STAT_RAMP n 0 st').fset F.ARR_STAT_LEVEL n 0 lvl'
    let c := { c with arr := { c.arr with rampI := i' } }
    -- the swap (R171, R172)
    let act := s.fget F.ARR_STAT_ACTSET n
    let act' := if swap then 1 - act else act
    let unready := swap && !(c.arr.set act').loaded
    let arr := if swap then { c.arr with badSwap := unready, busyA := if act = 0 then t + 130 else c.arr.busyA,
                                         busyB := if act = 1 then t + 130 else c.arr.busyB } else c.arr
    let s := (s.setCore n { c with arr := arr }).fset F.ARR_STAT_ACTSET n 0 act'
    let s := if unready then s.schedARR n 0 3 else s
    let s := if aop = 1 ∨ aop = 3 ∨ aop = 6 then
        let s := (s.bump F.ARR_ACTCNT_COUNT n 0 1).fset F.ARR_STAT_SPLIT n 0 (if aop = 6 then 1 else 0)
        if st' = 2 then s else s.schedARR n 0 1
      else s
    match w with
    | none => s
    | some w =>
      let cols (side : Nat) : List Nat := if aop ≠ 6 then List.range 64 else (List.range 32).map (32 * side + ·)
      let s := (c0.arrSides w).foldl (fun s x => s.arrIssue n c0 x act' (cols x.1) ovr t hs) s
      match c0.arrLoad w with
      | some (ti, tp) => s.arrLoad n ti tp (1 - act') ovr t hs
      | none => s

/-! ### The matrix-vector unit -/

/-- The unit's cycle; `moved` are the lines that scratch moves write in the vector buffer, with their places. -/
def State.mvField (s : State) (n : Nat) (w : Option (BitVec 128)) (ovr : List Int) (t : Nat) (hs : List ResHit)
    (moved : List (Nat × Line)) : State :=
  let mop := match w with
    | some w => bits (opMvu w) 11 9
    | none => 0
  let ti := match w with
    | some w => bits (opMvu w) 8 3
    | none => 0
  let acc := match w with
    | some w => bits (opMvu w) 2 0
    | none => 0
  if mop = 0 ∧ moved.isEmpty then s
  else
    let c := s.core n
    let tp := c.mtpl ti
    -- lines for the vector buffer: MOP 0b001 four lines, each scratch move one
    let parity := tplHit hs n 1 ti
    let (load, s) := match mop, tp with
      | 1, some tp =>
        let (d, s) := s.sagReads n ovr hs tp.vl (c.sagLines tp.vl 4)
        (if parity then List.replicate d.length none else d, s)
      | _, _ => (([] : Line), s)
    let c := s.core n
    let base := match tp with
      | some tp => if mop = 1 then tp.vboff / 64 else 0
      | none => 0
    let loads := mop = 1 ∧ tp.isSome
    let pos := if loads ∧ c.mv.loadTpl ≠ ti then 0 else c.mv.loaded
    let vlen := match tp with
      | some tp => tp.vlen
      | none => 0
    let nload := if mop = 1 then min 4 ((vlen - pos) / 64) else 0
    let ls := ((List.range nload).map fun i => (base + pos / 64 + i, (load.drop (64 * i)).take 64)) ++ moved
    -- R185: a read and a write of one byte in one cycle read the old value, so the lines are written after the unit's reads
    let wr (s : State) : State :=
      let c := s.core n
      let (m, clash) := c.mv.writeLines ls
      let m := { m with loadTpl := if loads then ti else m.loadTpl,
                        loaded := if loads then (if vlen ≤ pos + 64 * nload then 0 else pos + 64 * nload) else m.loaded }
      let s := s.setCore n { c with mv := m }
      if clash then s.schedARR n 1 8 else s
    let mac (s : State) (tp : MTpl) (clear : Bool) : State :=
      let (m, taken, lost) := c.mv.mac ti tp acc clear c.first (if parity then List.range 512 else hitsOf hs n 2 0)
      let m := m.hitAccs acc (hitsOf hs n 2 1)
      ((s.setCore n { c with mv := m }).bump F.ARR_MVCNT_COUNT n 0 (if taken = 0 then 0 else 1)).bump F.COR_LOSTPREC_COUNT n 0 lost
    wr <| match mop, tp with
    | 0, _ => s
    | 1, some _ => s
    | 2, some tp => mac s tp false
    | 3, some tp => mac s tp c.first
    | 4, some tp =>
      let (els, wrong, ovf, m) := c.mv.drain tp acc
      let out := c.sagLines tp.ds (64 * tp.out.width / 512)
      let s := s.setCore n { c with mv := m, evts := c.evts ++ [(t + 4, .lines (drainLines tp.out out (parity || genHit hs n (agKey 3 tp.ds)) els))] }
      let s := s.bump F.COR_ACCOVF_COUNT n 0 ovf
      if wrong then s.schedARR n 1 7 else s
    | 5, _ => s
    | 6, _ => s
    | 7, _ => s
    | _, none => s.schedARR n 1 5
    | _, _ => s

/-! ### The vector unit -/

/-- The unit's cycle: an operation issued at `t` writes at t + L (R141). -/
def State.vecField (s : State) (n : Nat) (w : BitVec 128) (ovr : List Int) (t : Nat) (hs : List ResHit) : State :=
  let c := s.core n
  let vop := bits (opVec w) 19 14
  let vt := c.vtpl (bits (opVec w) 13 8)
  let imm := bits (opVec w) 7 0
  let isInt := vt.lfmt = 9 ∨ vt.lfmt = 10
  let lat := let p := vopLatency vop; if isInt then p.2 else p.1
  let later (s : State) (e : CoreEv) (d : Nat) : State := let c := s.core n; s.setCore n { c with evts := c.evts ++ [(t + d, e)] }
  let bad (s : State) : State := (s.errCOR n 0 0 5).sched n 5 5
  let parity := tplHit hs n 2 (bits (opVec w) 13 8)
  if vop = 0 then s
  else if 0x21 ≤ vop then s
  else if vop = 0x1E then
    if vt.moves vop then
      let (d, s) := s.sagReads n ovr hs (vt.srcA % 16) (c.sagLines (vt.srcA % 16) 4)
      let d := if parity then List.replicate 256 none else d
      later s (.vreg (vt.dst % 16) (d.zipIdx.map fun p => (p.2, p.1))) 3
    else bad s
  else if vop = 0x1F then
    if vt.moves vop then
      let d := if parity ∨ genHit hs n (agKey 3 (vt.dst % 16)) then List.replicate 256 none else c.vr (vt.srcA % 16)
      later s (.lines ((c.sagLines (vt.dst % 16) 4).zipIdx.map fun p =>
        (p.1, (d.drop (64 * p.2)).take 64, List.range 64))) 1
    else bad s
  else
    let hits := hitsOf hs n 3 0 ++ (if parity then List.range 128 else [])
    let needDst := vop ≠ 0x12
    if needDst ∧ vt.dst / 16 ≠ 1 then bad s
    else
      match c.vop vop vt imm hits with
      | .bad => bad s
      | .reg bs => later s (.vreg (vt.dst % 16) bs) lat
      | .cmp bs f => later (later s (.vreg (vt.dst % 16) bs) lat) (.cmp f) lat
      | .tkIns k cs p => later s (.topkIns k cs p) lat
      | .tkOut bs => later (later s (.vreg (vt.dst % 16) bs) lat) .topkOut lat

/-! ### One core, one bundle -/

/-- R142: two operations that write one vector register in one cycle poison it. -/
def vregClash (evs : List CoreEv) : List Nat :=
  let rs := evs.filterMap fun e => match e with
    | .vreg r _ => some r
    | _ => none
  rs.eraseDups.filter fun r => decide (2 ≤ (rs.filter (· = r)).length)

/-- R149, R150: the mismatches of a bundle on one core are counted, recorded and raised. -/
def State.residueHit (s : State) (h : ResHit) : State :=
  let n := h.core
  let s := ((s.bump F.COR_RESCNT_COUNT n 0 1).bump F.COR_GRESCNT_COUNT 0 0 1).total 2
  let c := s.core n
  let s := s.setCore n { c with stepHits := c.stepHits + 1 }
  let s := if s.flag F.COR_RESLOG1_VALID n then s
    else ((s.w1cMark .COR_RESLOG1 n 0 (2 ^ 24)).rset .COR_RESLOG0 n 0 s.str.scnt.toNat).rset .COR_RESLOG1 n 0
      (2 ^ 24 + h.lane % 256 * 2 ^ 16 + (if h.unit = 1 ∧ h.part = 0 then h.row % 256 else 0) * 2 ^ 8 + h.unit % 16 * 2 ^ 4 + h.check % 16)
  s.raise .residue n h.unit h.check s.scnt32 (halfOfCore n)

/-- The effects of a core that fall in SCNT `t`, and the word it executes, if any (R32, R578). -/
def State.dueEvs (s : State) (n t : Nat) : List CoreEv := ((s.core n).evts.filter fun e => e.1 ≤ t).map (·.2)
def State.liveWord (s : State) (n : Nat) : Option (BitVec 128) :=
  if s.failed n || s.stall.held.any fun p => p.1 = n then none else (s.core n).cur

/-- The free destination of a scratch move: it depends on the core, the slot, the generator and its place alone (assumptions 12 and 24). -/
def Core.moveDst (c : Core) (n k : Nat) : Int := match c.cur with
  | some w => (64 * (Config.freeOf 3 [n, k, opSm w k % 16, smGet 0 c.agk (agKey 3 (opSm w k % 16))] % 0x6000) : Nat)
  | none => 0

/-- The scratch lines that a core touches in SCNT `t` (R118). -/
def State.coreLines (s : State) (n t : Nat) : List Int :=
  let c := s.core n
  dueLines t (s.dueEvs n t) ++ (match s.liveWord n with
    | some w => (if c.acts then c.portLines w (n % 8 = 0) (c.moveDst n) else []) ++ (if c.first then tldLine w else [])
    | none => [])

/-- Whether a core has nothing to do in SCNT `t`. -/
def State.coreIdle (s : State) (n t : Nat) : Bool :=
  (s.dueEvs n t).isEmpty && (s.core n).cur.isNone && s.fget F.ARR_STAT_RAMP n ≠ 1 && s.fget F.ARR_STAT_RAMP n ≠ 3

/-- R67: the reserved codes in the fields of a word leave each field idle and raise EV_SCHED once, in its first cycle, whether or not the word
acts. Those of ROP and COP are seen at their own fields. -/
def reservedFields (w : BitVec 128) : Nat :=
  let n (p : Bool) : Nat := if p then 1 else 0
  n (bits (opArr w) 8 6 = 7) + n (5 ≤ bits (opMvu w) 11 9) + n (0x21 ≤ bits (opVec w) 19 14) + n ((List.range 2).any fun k => 5 ≤ opSm w k / 16)

/-- The fields of one core in bundle `t`; `lines` are all the lines of its scratch that the cycle touches, the Weevil's among them. -/
def State.coreFields (s : State) (n : Nat) (hs : List ResHit) (t : Nat) (lines : List Int) : State :=
  let c := s.core n
  let due := s.dueEvs n t
  let ovr := overBanks lines
  let s := if ovr.isEmpty then s else s.bankConflict n ovr lines
  let s := s.arrayHits n hs t
  if s.coreIdle n t then s
  else
    let stopped := s.failed n || s.stall.held.any fun p => p.1 = n
    let w := s.liveWord n
    let acts := c.acts
    let due := if hs.isEmpty then due else s.dueEvs n t
    let s := s.setCore n { s.core n with evts := (s.core n).evts.filter fun e => t < e.1 }
    let sel := match w with
      | some w => c.selected w (n % 8 = 0)
      | none => []
    let s := match w with
      | some w => if c.first then (List.range (reservedFields w)).foldl (fun (s : State) _ => s.schedSTR n 2) (s.copField n w) else s
      | none => s
    let clash := vregClash due
    let s := due.foldl (fun s e => s.dueEffect n ovr hs t e) s
    -- a BF16 row is written in the cycle its sums land in (R168)
    let landed := s.dueEvs n t
    let s := s.setCore n { s.core n with evts := (s.core n).evts.filter fun e => t < e.1 }
    let s := clash.foldl (fun s r =>
      (s.setCore n { (s.core n) with vreg := smPut (List.replicate 256 (some 0)) (s.core n).vreg r (List.replicate 256 none) }).sched n 5 0) s
    let wa := if acts then w else none
    let s := match w with
      | some w => (List.range 4).foldl (fun s ch => s.vpField n ch w acts ovr t hs) s
      | none => s
    let (s, moved) := match wa with
      | some w => (List.range 2).foldl (fun (p : State × List (Nat × Line)) k =>
          let (s, d) := p.1.smField n k w ovr hs (c.moveDst n k)
          (s, p.2 ++ d.toList)) (s, ([] : List (Nat × Line)))
      | none => (s, ([] : List (Nat × Line)))
    let s := if stopped then s else s.arrField n wa c ovr t hs
    let s := s.mvField n wa ovr t hs moved
    let s := match wa with
      | some w => s.vecField n w ovr t hs
      | none => s
    -- R119: NLINE other than 1 and 4
    let s := if acts && c.first then ((sagsOf sel).filter c.sagBad).foldl (fun s _ => s.sched n 5 0) s else s
    let s := match w with
      | some w => if opFe w then (if opVp w 3 = 0 then s.fetchBeat n t else if c.first then s.schedSTR n 5 else s) else s
      | none => s
    let s := (due ++ landed).foldl (fun s e => s.lateEffect n ovr e) s
    let s := s.setCore n (sel.foldl Core.agAdvance (s.core n))
    match w with
    | some w => if c.first then s.copEnd n ovr w else s
    | none => s

end Sys2Proof.Machine
end

