-- ==== Sys2Proof/Machine/Ecp.lean ====
section
/-!
DEFINITION. How an ECP command is taken (R419 to R424): the checks at the ACK, the groups, the ACK and the COMPLETION.
-/
namespace Sys2Proof.Machine

/-- The groups of R423; 0 is none. -/
abbrev GRP_SESSION := 1
abbrev GRP_STREAM := 2
abbrev GRP_MAP := 3
abbrev GRP_PAGES := 4
abbrev GRP_REPAIR := 5
abbrev GRP_LICENCE := 6
abbrev GRP_BBR := 7
abbrev GRP_PAIR := 8

/- Opcodes of R424. -/
namespace OP
abbrev SESSION_OPEN := 0x0001
abbrev SESSION_PROOF := 0x0002
abbrev SESSION_CLOSE := 0x0003
abbrev EVENT_CFG := 0x0004
abbrev REG_READ := 0x0010
abbrev REG_WRITE := 0x0011
abbrev MEM_READ := 0x0012
abbrev STREAM_LOAD := 0x0020
abbrev STREAM_START := 0x0021
abbrev STREAM_HALT := 0x0022
abbrev STREAM_RESUME := 0x0023
abbrev CHMAP_SET := 0x0030
abbrev KV_REFILL := 0x0031
abbrev MOLT_HALF := 0x0040
abbrev LBIST_RUN := 0x0041
abbrev LICENCE_INSTALL := 0x0042
abbrev BBR_READ := 0x0050
abbrev BBR_ACK := 0x0051
abbrev PAIR_MODE := 0x0060
abbrev HALF_RESET := 0x0070
abbrev WARM_RESET := 0x0071
end OP

/-- An ACK; with DONE it carries the final status (R421). -/
def State.ack (s : State) (h : EcpHdr) (op status : Nat) (done : Bool) (body : List Byte := []) : State :=
  s.send h.qp.val { kind := 2, op := op, tag := h.tag.toNat, status := status, done := done, session := h.session.toNat, body := body }

/-- A command refused at the ACK is counted (R438). -/
def State.refuse (s : State) (h : EcpHdr) (op status : Nat) : State :=
  (s.ack h op status true).bump F.ECP_CMDCNT_REFUSED h.qp.val 0 1

/-- Whether lines of a queue pair's RDMA WRITEs still wait (R412). -/
def State.writesWait (s : State) (q : Nat) : Bool :=
  (s.hq.any fun p => p.2.any fun l => l.write && l.qp = q) || (s.mesh.any fun m => m.line.write && m.line.qp = q) ||
    (s.ports.any fun p => p.2.rx.any fun x => x.2.write && x.2.qp = q) ||
    s.itl.any fun m => m.2.dirs.any fun d => d.2.asked.any fun a => a.2.1.write && a.2.1.qp = q

/-- A command's SEND is acted on: the device serves ECP, the queue pair is connected, and the lines of its earlier RDMA
WRITEs are written (R412). -/
def State.hears (s : State) (q : Nat) : Bool := s.ready && s.fget F.ECP_QPSTAT_STATE q = 2 && !s.writesWait q

/-- What a command's body does: a final status with the completion body at once, or work that goes on. -/
abbrev Answer := Option (Nat × List Byte)

/-- R532: whether a running logic BIST keeps a command out. -/
def State.lbistRefuses (s : State) (op group : Nat) : Bool :=
  s.life.lbist.isSome && (group = GRP_STREAM || group = GRP_REPAIR || op = OP.SESSION_OPEN || op = OP.LICENCE_INSTALL || op = OP.PAIR_MODE)

/-- The state in which an accepted command's body is acted on: its CE mark answered (R410), its acceptance counted (R438). -/
def State.taken (s : State) (h : EcpHdr) : State :=
  (if h.ce then s.ceMark h.qp.val else s).bump F.ECP_CMDCNT_ACCEPTED h.qp.val 0 1

/-- The ACK of an accepted command (R421, R422): with DONE where the body has its final status, else the command stays in progress. -/
def State.answer (s : State) (h : EcpHdr) (op group : Nat) (args : List Nat) (data : List Byte) : Answer → State
  | some (st, body) => s.ack h op st true body
  | none =>
    let t := s.ack h op ST.OK false
    { t with cmds := t.cmds ++ [{ op := op, qp := h.qp.val, session := h.session.toNat, tag := h.tag.toNat, group := group,
                                  since := t.cc, args := args, data := data }] }

/-- R421 to R423: take a command. `free` are the commands that need no session, `always` STREAM_HALT and WARM_RESET, which no
command of their group keeps out. -/
def State.ecp (s : State) (h : EcpHdr) (op group : Nat) (free always : Bool) (args : List Nat) (data : List Byte)
    (act : State → State × Answer) : State :=
  let q := h.qp.val
  let s0 := s
  let s := if h.ce then s.ceMark q else s
  if s.life.warm then s.refuse h op ST.RESET
  else if s.lbistRefuses op group then
    let (x, s) := s.fresh
    s.refuse h op (if x % 2 = 0 then ST.STATE else ST.BUSY)
  else if !free ∧ !(s.flag F.ECP_QPSTAT_SESS q ∧ s.fget F.ECP_SESSION_SESSION q = h.session.toNat) then s.refuse h op ST.AUTH
  else if !free ∧ 32 ≤ (s.cmds.filter fun c => c.qp = q).length then s.refuse h op ST.BUSY
  else if group ≠ 0 ∧ !always ∧ (s.cmds.any fun c => c.group = group) then s.refuse h op ST.BUSY
  else
    let p := act (s0.taken h)
    p.1.answer h op group args data p.2

/-- The COMPLETION of a command in progress. -/
def State.completion (s : State) (c : Cmd) (status : Nat) (body : List Byte := []) : State :=
  s.send c.qp { kind := 3, op := c.op, tag := c.tag, status := status, session := c.session, body := body }

/-- Complete the command in progress with an opcode. -/
def State.complete (s : State) (op status : Nat) (body : List Byte := []) : State :=
  match s.cmds.find? fun c => c.op = op with
  | none => s
  | some c => { (s.completion c status body) with cmds := s.cmds.filter fun d => d ≠ c }

/-- Whether a command with an opcode is in progress. -/
def State.doing (s : State) (op : Nat) : Bool := s.cmds.any fun c => c.op = op

/-- The command in progress with an opcode. -/
def State.cmdOf (s : State) (op : Nat) : Option Cmd := s.cmds.find? fun c => c.op = op

end Sys2Proof.Machine
end

