-- ==== Sys2Proof/Machine/Kv.lean ====
section
/-!
DEFINITION. The page books of a core (chapter 06): page and segment descriptors in scratch, the free and deferred lists, the
page operations of R242 to R247, the step boundary of R248 and R249, and the refill of R255.
-/
namespace Sys2Proof.Machine

/-! ### Descriptors in scratch -/

/-- Whether a code word of a range of scratch decodes uncorrectable. -/
def State.scratchUncorr (s : State) (n off len : Nat) : Bool :=
  if 0x180000 ≤ off ∨ s.failed n then false
  else
    let w0 := scratchAddr n off / 32
    let w1 := (scratchAddr n off + len - 1) / 32
    (List.range (w1 + 1 - w0)).any fun i => (s.decodeWord 3 (w0 + i) []).2 = .uncorr

/-- Bytes of scratch as numbers: a poisoned byte has unspecified value bits (R159). -/
def State.scratchVals (s : State) (n off len : Nat) : List Byte × State :=
  let (l, s) := s.scratchBytes n off len
  s.reveal l

/-- A number in scratch. -/
def State.scratchNat (s : State) (n off len : Nat) : Nat × State :=
  let (l, s) := s.scratchVals n off len
  (leNat l, s)

/-- Store a number in scratch. -/
def State.scratchPutNat (s : State) (n off len v : Nat) : State := s.scratchPut n off ((leBytes len v).map some)

/-- R268: NPAGE above 7,168 acts as 7,168. -/
def State.npage (s : State) (n : Nat) : Nat := min 7168 (s.fget F.KVP_POOL_NPAGE n)

/-- A page descriptor (R239). -/
structure PDesc where
  ref : Nat
  st : Nat
  link : Nat
  deriving DecidableEq, Repr

/- Page states of R239. -/
namespace PG
abbrev FREE := 0
abbrev LIVE := 1
abbrev DEFERRED := 2
abbrev RESERVE := 3
abbrev NONE := 0xFFFF
end PG

def State.pdOff (s : State) (n p : Nat) : Nat := s.fget F.KVP_DTBASE_OFF n + 8 * p

def State.pdesc (s : State) (n p : Nat) : PDesc × State :=
  let (x, s) := s.scratchNat n (s.pdOff n p) 8
  ({ ref := bits x 15 0, st := bits x 17 16, link := bits x 47 32 }, s)

def State.setPdesc (s : State) (n p : Nat) (d : PDesc) : State :=
  s.scratchPutNat n (s.pdOff n p) 8 (d.ref % 2 ^ 16 + d.st % 4 * 2 ^ 16 + d.link % 2 ^ 16 * 2 ^ 32)

def Seg.valid (g : Seg) : Bool := g.flags.testBit 0
def Seg.trunc (g : Seg) : Bool := g.flags.testBit 1
def Seg.bf16 (g : Seg) : Bool := g.flags.testBit 4
def Seg.kenc (g : Seg) : Nat := bits g.flags 5 5
/-- Positions per page (R236). -/
def Seg.per (g : Seg) : Nat := if g.bf16 then 32 else 64
/-- Page-list entry `e`. -/
def Seg.page (g : Seg) (e : Nat) : Nat := (g.pages[e]?).getD PG.NONE
def Seg.setPage (g : Seg) (e p : Nat) : Seg := { g with pages := g.pages.set e p }
/-- Set TRUNC with its cause: 1 POOL, 2 LIMIT, 3 STREAM. -/
def Seg.setTrunc (g : Seg) (cause : Nat) : Seg := { g with flags := setBits (setBits g.flags 1 1 1) 3 2 cause }

/-- The segment descriptor at scratch offset `off` that 320 bytes spell. -/
def Seg.ofBytes (off : Nat) (l : List Byte) : Seg :=
  let v (o k : Nat) : Nat := leNat ((l.drop o).take k)
  { off := off, slot := v 0 2, head := v 2 1, segidx := v 3 1, npos := v 4 2, prov := v 6 1, flags := v 7 1, kscale := v 8 1,
    vscale := v 9 1, npg := v 10 2, pages := (List.range 128).map fun e => v (64 + 2 * e) 2 }

/-- The 320 bytes of a segment descriptor: entries at or above NPG read 0xFFFF (R240). -/
def Seg.bytes (g : Seg) : List Byte :=
  leBytes 2 g.slot ++ leBytes 1 g.head ++ leBytes 1 g.segidx ++ leBytes 2 g.npos ++ leBytes 1 g.prov ++
    leBytes 1 g.flags ++ leBytes 1 g.kscale ++ leBytes 1 g.vscale ++ leBytes 2 g.npg ++ List.replicate 52 0 ++
    (List.range 128).flatMap fun e => leBytes 2 (if e < g.npg then g.page e else PG.NONE)

/-- Read the segment descriptor at a scratch offset. -/
def State.seg (s : State) (n off : Nat) : Seg × State :=
  let (l, s) := s.scratchVals n off 320
  (Seg.ofBytes off l, s)

/-- Write a segment descriptor. -/
def State.putSeg (s : State) (n : Nat) (g : Seg) : State := s.scratchPut n g.off (g.bytes.map some)

/-- Device address of page-list entry `e`. -/
def Seg.entryAddr (g : Seg) (n e : Nat) : Nat := scratchAddr n (g.off + 64 + 2 * e)

/-- A page number that no page of the pool has (R247). -/
def State.badPage (s : State) (n p : Nat) : Bool := p ≠ PG.NONE && decide (s.npage n ≤ p)

/-- R237: device address of line `j` of page `p`, if the channel has it. -/
def State.pageLine (s : State) (n p j : Nat) : Option Nat :=
  let off := 4096 * s.fget F.KVP_POOL_POOLOFF n + 4096 * p + 64 * (j / 4)
  if off < 0x2000000 then some (vaultAddr n (j % 4) off) else none

/-! ### The lists -/

/-- R242, R243: take a page. -/
def State.takePage (s : State) (n : Nat) : Option Nat × State :=
  let live (s : State) (p : Nat) : State :=
    (s.setPdesc n p { ref := 1, st := PG.LIVE, link := PG.NONE }).fset F.KVP_LIVE_COUNT n 0 (s.fget F.KVP_LIVE_COUNT n + 1)
  if 0 < s.fget F.KVP_FREE_COUNT n then
    let p := s.fget F.KVP_FREE_HEAD n
    let (d, s) := s.pdesc n p
    let s := (s.fset F.KVP_FREE_HEAD n 0 d.link).fset F.KVP_FREE_COUNT n 0 (s.fget F.KVP_FREE_COUNT n - 1)
    (some p, live s p)
  else if s.flag F.KVP_RESERVE_VALID n then
    let p := s.fget F.KVP_RESERVE_PAGE n
    let s := (s.fset F.KVP_RESERVE_VALID n 0 0).fset F.KVP_STAT_RSVTAKEN n 0 1
    (some p, live (s.raise .kvReserve n 0 0 0 (halfOfCore n)) p)
  else (none, if s.flag F.KVP_STAT_RSVTAKEN n then { s with kvExh := smPut 0 s.kvExh n (s.rget .STR_STEP + 1) } else s)

/-- R251: the number of a segment descriptor. -/
def State.segNumber (s : State) (n : Nat) (g : Seg) : Nat := (g.off - s.fget F.KVP_SEGBASE_OFF n) / 320

/-- R252: truncate a segment. -/
def State.truncate (s : State) (n : Nat) (g : Seg) (cause : Nat) : Seg × State :=
  (g.setTrunc cause, ((s.raise .kvTrunc n 0 cause (s.segNumber n g) (halfOfCore n)).bump F.KVP_TRUNCCNT_COUNT n 0 1).bump
    F.KVP_GTRUNC_COUNT 0 0 1)

/-- The reference count of a page. -/
def State.refcnt (s : State) (n p : Nat) : Nat × State := let (d, s) := s.pdesc n p; (d.ref, s)

def State.setRef (s : State) (n p r : Nat) : State := let (d, s) := s.pdesc n p; s.setPdesc n p { d with ref := r }

/-- R247: a page number out of range stops the operation and is logged. -/
def State.pageAbsent (s : State) (n : Nat) (g : Seg) (e : Nat) : State := s.errKVP n (g.entryAddr n e) ST.ABSENT 3

/-- R245, R287: a copy-on-write of entry `e` takes its page: status, and old and new page where one is copied. -/
def State.pageCowTake (s : State) (n : Nat) (g : Seg) (e : Nat) : Nat × Option (Nat × Nat) × Seg × State :=
  let old := g.page e
  if old = PG.NONE then (ST.OK, none, g, s)
  else if s.badPage n old then (ST.ABSENT, none, g, s.pageAbsent n g e)
  else
    let (r, s) := s.refcnt n old
    if r ≤ 1 then (ST.OK, none, g, s)
    else
      match s.takePage n with
      | (none, s) => let (g, s) := s.truncate n g 1; (ST.TRUNC, none, g, s)
      | (some p, s) => (ST.OK, some (old, p), g, s)

/-- R245, R287: it repoints the entry and decrements the old page's count. -/
def State.pageCowEnd (s : State) (n : Nat) (g : Seg) (e old p : Nat) : Seg × State :=
  let (r, s) := s.refcnt n old
  (g.setPage e p, (s.setRef n old (r - 1)).bump F.KVP_COWCNT_COUNT n 0 1)

/-- R244: an append opens page-list entry `e`: the segment with its page, or truncated. -/
def State.openEntry (s : State) (n : Nat) (g : Seg) (e : Nat) : Bool × Seg × State :=
  match s.takePage n with
  | (none, s) => let (g, s) := s.truncate n g 1; (false, g, s)
  | (some p, s) => (true, { g.setPage e p with npg := e + 1 }, s)

/-- R244: an append that reaches position 4,096: status. -/
def State.segFull (s : State) (n : Nat) (g : Seg) : Nat × Seg × State :=
  if g.segidx = 63 then let (g, s) := s.truncate n g 2; (ST.TRUNC, g, s)
  else (ST.SEGFULL, g, (s.errKVP n (scratchAddr n g.off) ST.SEGFULL 5).sched n 14 5)

/-- R246: share entry `e` of `src`: status, and the destination segment. -/
def State.shareEntry (s : State) (n : Nat) (src g : Seg) (e : Nat) : Nat × Seg × State :=
  let p := src.page e
  if p = PG.NONE then (ST.OK, { g.setPage e PG.NONE with npg := e + 1 }, s)
  else if s.badPage n p then (ST.ABSENT, g, s.pageAbsent n src e)
  else
    let (r, s) := s.refcnt n p
    if r = 65535 then (ST.REFCNT, g, s.errKVP n (src.entryAddr n e) ST.REFCNT 2)
    else (ST.OK, { g.setPage e p with npg := e + 1 }, s.setRef n p (r + 1))

/-- Drop one entry (R246): status, pages moved to the deferred list. -/
def State.dropPage (s : State) (n : Nat) (g : Seg) (e : Nat) : Nat × Nat × Seg × State :=
  let p := g.page e
  if p = PG.NONE then (ST.OK, 0, g, s)
  else if s.badPage n p then (ST.ABSENT, 0, g, s.pageAbsent n g e)
  else
    let (d, s) := s.pdesc n p
    if d.ref = 0 then
      (ST.REFCNT, 0, g, (s.errKVP n (g.entryAddr n e) ST.REFCNT 2).raise .kvBalance n 0 0 0 (halfOfCore n))
    else
      let g := g.setPage e PG.NONE
      if d.ref ≠ 1 then (ST.OK, 0, g, s.setPdesc n p { d with ref := d.ref - 1 })
      else
        let cnt := s.fget F.KVP_DEFER_COUNT n
        let tail := s.fget F.KVP_DEFER_TAIL n
        let s := s.setPdesc n p { ref := 0, st := PG.DEFERRED, link := PG.NONE }
        let s := if cnt = 0 then s.fset F.KVP_DEFER_HEAD n 0 p
          else let (t, s) := s.pdesc n tail; s.setPdesc n tail { t with link := p }
        let s := ((s.fset F.KVP_DEFER_TAIL n 0 p).fset F.KVP_DEFER_COUNT n 0 (cnt + 1)).fset F.KVP_LIVE_COUNT n 0
          (s.fget F.KVP_LIVE_COUNT n - 1)
        (ST.OK, 1, g, s)

/-- Drop several entries: a failed drop does not stop the others (R246), a page number that no page has does (R247). The last status, and
the pages moved to the deferred list. -/
def State.dropPages (n : Nat) : List Nat → Nat → Seg → State → Nat × Nat × Seg × State
  | [], k, g, s => (ST.OK, k, g, s)
  | e :: es, k, g, s =>
    let (t, m, g, s) := s.dropPage n g e
    if t = ST.ABSENT then (t, k + m, g, s) else State.dropPages n es (k + m) g s

def ceilDiv (a b : Nat) : Nat := (a + b - 1) / b

/-- The page-list entries that the segment's positions need. -/
def Seg.need (g : Seg) : Nat := ceilDiv (g.npos + g.prov) g.per

/-- Drop provisional positions from `keep` upwards. -/
def State.rollback (s : State) (n : Nat) (g : Seg) (keep : Nat) : Nat × Nat × Seg × State :=
  let g := { g with prov := min g.prov keep }
  let (st, k, g, s) := State.dropPages n ((List.range (min g.npg 128 - g.need)).map (g.need + ·)) 0 g s
  (st, k, if st = ST.ABSENT then g else { g with npg := g.need }, s)

/-! ### Token trees (R265, R266) -/

/-- R265: whether a parent array is valid for `n` nodes. -/
def treeOk (par : List Nat) (n : Nat) : Bool :=
  (par.headD 0) = 0xFF && ((List.range (n - 1)).all fun i => decide ((par[i + 1]?).getD 0xFF < i + 1))

/-- The ancestor masks of the nodes, in order. -/
def treeMasks (par : List Nat) : Nat → List Nat → List Nat
  | 0, ms => ms
  | left + 1, ms =>
    let k := ms.length
    let m := if k = 0 then 1 else ((ms[(par[k]?).getD 0]?).getD 0) ||| 2 ^ k
    treeMasks par left (ms ++ [m])

/-- The accepted path: from node `x`, its lowest accepted child below `n`, until there is none. -/
def treeWalk (par : List Nat) (acc n : Nat) : Nat → Nat → List Nat
  | 0, x => [x]
  | fuel + 1, x =>
    match (List.range n).find? fun k => decide (x < k) && (par[k]?).getD 0xFF = x && acc.testBit k with
    | some k => x :: treeWalk par acc n fuel k
    | none => [x]

/-! ### The step boundary -/

/-- Mark the pages of a list FREE, and answer the last. -/
def State.freeWalk (n : Nat) : Nat → Nat → Nat → State → Nat × State
  | 0, _, last, s => (last, s)
  | left + 1, p, _, s =>
    let (d, s) := s.pdesc n p
    State.freeWalk n left d.link p (s.setPdesc n p { d with st := PG.FREE })

/-- R248 step 2: splice the deferred list onto the head of the free list. -/
def State.splice (s : State) (n : Nat) : State :=
  let cnt := s.fget F.KVP_DEFER_COUNT n
  if cnt = 0 then s
  else
    let head := s.fget F.KVP_DEFER_HEAD n
    let (last, s) := State.freeWalk n cnt head head s
    let (d, s) := s.pdesc n last
    let s := s.setPdesc n last { d with link := s.fget F.KVP_FREE_HEAD n }
    let s := (s.fset F.KVP_FREE_HEAD n 0 head).fset F.KVP_FREE_COUNT n 0 (s.fget F.KVP_FREE_COUNT n + cnt)
    ((s.fset F.KVP_DEFER_COUNT n 0 0).fset F.KVP_DEFER_HEAD n 0 PG.NONE).fset F.KVP_DEFER_TAIL n 0 PG.NONE

/-- R248 step 1 for one segment. -/
def State.commitSeg (s : State) (n i : Nat) : State :=
  let off := s.fget F.KVP_SEGBASE_OFF n + 320 * i
  let (g, s) := s.seg n off
  if !g.valid ∨ g.prov = 0 then s
  else
    let (g, s) := if g.trunc then let (_, _, g, s) := s.rollback n g 0; (g, s) else ({ g with npos := g.npos + g.prov }, s)
    s.putSeg n { g with prov := 0 }

/-- R255: refill the reserve of a core; whether the free list was empty. -/
def State.refillCore (s : State) (n : Nat) : Bool × State :=
  if !s.flag F.KVP_STAT_RSVTAKEN n then (false, s)
  else if s.fget F.KVP_FREE_COUNT n = 0 then (true, s)
  else
    let p := s.fget F.KVP_FREE_HEAD n
    let (d, s) := s.pdesc n p
    let s := (s.fset F.KVP_FREE_HEAD n 0 d.link).fset F.KVP_FREE_COUNT n 0 (s.fget F.KVP_FREE_COUNT n - 1)
    let s := s.setPdesc n p { ref := 0, st := PG.RESERVE, link := PG.NONE }
    (false, ((s.fset F.KVP_RESERVE_PAGE n 0 p).fset F.KVP_RESERVE_VALID n 0 1).fset F.KVP_STAT_RSVTAKEN n 0 0)

/-- The segment descriptors of a core. -/
def State.nseg (s : State) (n : Nat) : Nat := min 256 (s.fget F.KVP_SEGBASE_NSEG n)

/-- The sum of the reference counts of a pool, and the page-list entries that name a page (R249). -/
def State.refSum (s : State) (n : Nat) : Nat := ((List.range (s.npage n)).map fun p => (s.refcnt n p).1).sum
def State.entrySum (s : State) (n : Nat) : Nat :=
  ((List.range (s.nseg n)).map fun i =>
    let g := (s.seg n (s.fget F.KVP_SEGBASE_OFF n + 320 * i)).1
    ((List.range (min g.npg 128)).filter fun e => g.page e ≠ PG.NONE).length).sum

/-- R249: whether the books of a core balance. -/
def State.kvBalanced (s : State) (n : Nat) : Bool :=
  decide (s.fget F.KVP_FREE_COUNT n + s.fget F.KVP_LIVE_COUNT n + s.fget F.KVP_DEFER_COUNT n + s.fget F.KVP_RESERVE_VALID n
    = s.npage n) && decide (s.refSum n = s.entrySum n)

/-- R249: check the balance of a core. -/
def State.checkBalance (s : State) (n : Nat) : State :=
  if s.kvBalanced n then s
  else
    (((s.w1cMark .KVP_STAT n 0 4).fset F.KVP_STAT_BALERR n 0 1).errKVP n (scratchAddr n (s.fget F.KVP_DTBASE_OFF n)) ST.REFCNT 1).raise
      .kvBalance n 0 0 0 (halfOfCore n)

/-- The cores whose books hold anything: on every other core the boundary actions change nothing, and the books balance at zero (R249). -/
def State.kvBooks (s : State) : List Nat := (List.range 1024).filter fun n =>
  s.npage n ≠ 0 || s.nseg n ≠ 0 || s.fget F.KVP_FREE_COUNT n ≠ 0 || s.fget F.KVP_LIVE_COUNT n ≠ 0 || s.fget F.KVP_DEFER_COUNT n ≠ 0 ||
    s.flag F.KVP_RESERVE_VALID n || s.flag F.KVP_STAT_RSVTAKEN n

/-- R248: the boundary actions of a core, up to the refill, which the caller makes for the cores it names. -/
def State.kvBoundary (s : State) (n : Nat) (refill : Bool) : Bool × State :=
  let s := (List.range (s.nseg n)).foldl (fun s i => s.commitSeg n i) s
  let s := s.splice n
  let (empty, s) := if refill then s.refillCore n else (false, s)
  (empty, s.checkBalance n)

/-! ### Reserve refills (R255) -/

/-- Bytes of a bitmap of `n` bits. -/
def bitmapBytes (n : Nat) (b : Nat → Bool) : List Byte :=
  (List.range (n / 8)).map fun i => BitVec.ofNat 8 ((List.range 8).foldl (fun v j => if b (8 * i + j) then v + 2 ^ j else v) 0)

/-- A bit of a bitmap. -/
def bitOf (bs : List Byte) (i : Nat) : Bool := (((bs[i / 8]?).getD 0).toNat).testBit (i % 8)

/-- Refill the reserves of the cores that a mask names: the cores whose free list was empty. -/
def State.refillAll (s : State) (mask : List Byte) : List Nat × State :=
  ((List.range 1024).filter (bitOf mask)).foldl (fun p n =>
    let (e, s) := p.2.refillCore n
    (if e then n :: p.1 else p.1, s)) (([] : List Nat), s)

/-- The COMPLETION of a KV_REFILL. -/
def refillAnswer (empty : List Nat) : Nat × List Byte :=
  (if empty = [] then ST.OK else ST.KV_EMPTY, bitmapBytes 1024 fun n => empty.contains n)

/-- The boundary actions of the cores `ns`: those that `mask` names refill their reserves; the cores whose free list was empty. -/
def State.kvCoresStep (ns : List Nat) (mask : List Byte) (s : State) : List Nat × State :=
  ns.foldl (fun p n =>
    let (e, s) := p.2.kvBoundary n (bitOf mask n)
    (if e then n :: p.1 else p.1, s)) (([] : List Nat), s)

end Sys2Proof.Machine
end

