-- ==== Sys2Proof/Machine/Weevil.lean ====
section
/-!
DEFINITION. The Weevil engines (chapter 07): rings and posts, the descriptor checks and worst-case durations, what each
operation does and which line accesses it schedules, the page unit, and the halt, disable and clear of channels.
-/
namespace Sys2Proof.Machine

def State.wv (s : State) (k : Nat) : Wvl := smGet {} s.wvl k
def State.setWv (s : State) (k : Nat) (v : Wvl) : State := { s with wvl := smPut {} s.wvl k v }
def State.wch (s : State) (k ch : Nat) : WCh := smGet {} (s.wv k).chs ch
def State.setWch (s : State) (k ch : Nat) (c : WCh) : State :=
  s.setWv k { s.wv k with chs := smPut {} (s.wv k).chs ch c }
/-- The SCNT of the next bundle. -/
def State.now (s : State) : Nat := s.str.scnt.toNat

/-- R273: RINGLEN. -/
def State.ringLen (s : State) (k ch : Nat) : Nat := 2 ^ max 4 (min 12 (s.fget F.WVL_RING_LOG2LEN k ch))
/-- The core that holds a channel's ring. -/
def State.ringCore (s : State) (k ch : Nat) : Nat := 8 * k + s.fget F.WVL_RING_RINGCORE k ch
/-- Scratch offset of the descriptor with an index. -/
def State.descOff (s : State) (k ch i : Nat) : Nat := s.fget F.WVL_RING_RINGOFF k ch + 64 * (i % s.ringLen k ch)

/-- PROD − CONS, modulo 2^32. -/
def State.queued (s : State) (k ch : Nat) : Nat :=
  (s.fget F.WVL_IDX_PROD k ch + 2 ^ 32 - s.fget F.WVL_IDX_CONS k ch) % 2 ^ 32

/-- A schedule error of the Weevil: its record and EV_SCHED (R541: block 15, the cluster). -/
def State.schedWVL (s : State) (k ch addr status cause : Nat) : State := (s.errWVL k ch addr status cause).sched k 15 cause

/-! ### Scratch lines (R271) -/

/-- The SCNT from which the channel's next descriptor may start (R275, R276); none where its post is to be cancelled (R301). -/
def State.startDue (s : State) (k ch : Nat) : Option Nat :=
  let c := s.wch k ch
  match c.posts with
  | p :: _ => if p.first ≠ s.fget F.WVL_IDX_CONS k ch then some c.nextAt else if p.dead then none else some (max p.due c.nextAt)
  | [] => some c.nextAt

/-- Whether a channel reads its next descriptor in SCNT `t` (R275 to R277). -/
def State.wvFetches (s : State) (k ch t : Nat) : Bool :=
  s.flag F.WVL_CHCTL_EN k ch && !s.flag F.WVL_CHCTL_HALTED k ch && (s.wch k ch).run.isNone && (s.wch k ch).got.isNone &&
    decide (0 < s.queued k ch) && (match s.startDue k ch with
      | some x => decide (x ≤ t)
      | none => false)

/-- The lines counted in this cycle so far, by core. -/
def State.linesNow (s : State) (k : Nat) : Wvl :=
  let w := s.wv k
  if w.linesAt = s.cc then w else { w with linesAt := s.cc, lines := [], wline := [] }

/-- R271: EV_SCHED with cause WLINE, once for a core in a cycle. -/
def State.raiseWline (s : State) (k n : Nat) : State :=
  let w := s.linesNow k
  if w.wline.contains n then s else (s.setWv k { w with wline := n :: w.wline }).sched k 15 7

/-- Write 16 bytes of a status or cancel record. -/
def State.writeRecord (s : State) (k ch off status op idx tag result : Nat) : State :=
  s.scratchPut (s.ringCore k ch) off
    ((leBytes 2 status ++ leBytes 1 op ++ leBytes 1 0 ++ leBytes 4 idx ++ leBytes 4 tag ++ leBytes 4 result).map some)

/-- Scratch offset of the status record of a descriptor index. -/
def State.statusOff (s : State) (k ch i : Nat) : Nat := s.fget F.WVL_RING_STATOFF k ch + 64 + 16 * (i % s.ringLen k ch)

/-! ### Posts and cancelling -/

/-- R274, R301: a post of `n` descriptors accepted in SCNT `t`. -/
def State.wvPost (s : State) (k ch n t : Nat) : State :=
  if s.ringLen k ch < s.queued k ch + n then
    let s := s.bump F.WVL_DROPCNT_COUNT k 0 1
    if s.flag F.WVL_CHCTL_EN k ch ∧ !s.flag F.WVL_CHCTL_HALTED k ch then
      s.schedWVL k ch (scratchAddr (s.ringCore k ch) (s.fget F.WVL_RING_RINGOFF k ch)) 0 3
    else s
  else
    let p := s.fget F.WVL_IDX_PROD k ch
    let s := s.fset F.WVL_IDX_PROD k ch (p + n)
    let c := s.wch k ch
    s.setWch k ch { c with posts := c.posts ++ [{ first := p, count := n, due := t + 2, dead := !s.flag F.WVL_CHCTL_EN k ch }] }

/-- R302: cancel the queued descriptors of a channel: the first index and the number. One that has started is not cancelled. -/
def State.wvCancel (s : State) (k ch : Nat) : Nat × Nat × State :=
  let busy := if (s.wch k ch).run.isSome || (s.wch k ch).got.isSome then 1 else 0
  let n := s.queued k ch - busy
  let first := (s.fget F.WVL_IDX_CONS k ch + busy) % 2 ^ 32
  let s := (s.fset F.WVL_IDX_CONS k ch (s.fget F.WVL_IDX_CONS k ch + n)).bump F.WVL_CANCCNT_COUNT k 0 n
  (first, n, s.setWch k ch { s.wch k ch with posts := [] })

/-- The cancel record (R302). -/
def State.cancelRecord (s : State) (k ch first n : Nat) : State :=
  s.writeRecord k ch (s.fget F.WVL_RING_STATOFF k ch) ST.CANCELLED 0 first 0 n

/-- R301 to R303: the pending commands of a channel take effect; `boundary`: at a step boundary, whose cancel record is
written in the first cycle after it. A halt in the cycle in which CLEAR takes effect stays. -/
def State.wvApply (s : State) (k ch pend : Nat) (clear boundary : Bool) : State :=
  let s := s.fset F.WVL_CHCTL_ENPEND k ch 0
  let s := s.fset F.WVL_CHCTL_CLRPEND k ch 0
  let s := if pend = 1 then s.fset F.WVL_CHCTL_EN k ch 1 else if pend = 2 then s.fset F.WVL_CHCTL_EN k ch 0 else s
  let s := if clear ∧ (s.wch k ch).haltAt ≠ s.now + 1 then s.fset F.WVL_CHCTL_HALTED k ch 0 else s
  if pend = 2 ∨ clear then
    let (first, n, s) := s.wvCancel k ch
    if n = 0 then s
    else if boundary then s.setWch k ch { s.wch k ch with cancel := some (first, n) }
    else s.cancelRecord k ch first n
  else s

/-- R299: a channel halts. -/
def State.wvHalt (s : State) (k ch idx : Nat) : State :=
  if s.flag F.WVL_CHCTL_HALTED k ch then s
  else
    let s := s.setWch k ch { s.wch k ch with haltAt := s.now + 1 }
    ((s.fset F.WVL_CHCTL_HALTED k ch 1).fset F.WVL_CHCTL_HALTIDX k ch idx).raise .wvlHalt k ch 0 s.scnt32 (k / 64)

/-! ### Descriptor checks (R278 to R281) -/

/-- A field of a descriptor. -/
def dField (d : List Byte) (o n : Nat) : Nat := leNat ((d.drop o).take n)

/-- The operation, its mode, LPC and CBND. -/
def dOp (d : List Byte) : Nat := dField d 0 1
def dMode (d : List Byte) : Nat := dField d 1 1 % 16
def dNl (d : List Byte) : Nat := 1 + bits (dField d 1 1) 4 4
def dCbnd (d : List Byte) : Nat := bits (dField d 1 1) 5 5
def dRsv (d : List Byte) : Nat := max 8 (dField d 8 4)

/-- Operand ranges of a descriptor that lie in one region each (R280): address, length, and whether it is read or written;
`2` a window. The alignment of each. -/
def dSpans (d : List Byte) (bf16 : Bool) : List (Nat × Nat × Nat × Nat) :=
  let a := dField d 16 8
  let b := dField d 24 8
  let c := dField d 32 8
  let el := 64 * dField d 40 2 * dField d 42 2
  let ix := 64 * ceilDiv (dField d 40 2) 16
  match dOp d with
  | 1 => [(a, 64 * dField d 40 4, 0, 64), (b, 64 * dField d 40 4, 1, 64)]
  | 2 => if dMode d = 1 then [(a, 320, 0, 64), (b, 16384 * dField d 48 1, 1, 64)]
         else [(a, 64, 0, 64), (b, el, 1, 64), (c, ix, 3, 64)]
  | 3 => [(a, el, 0, 64), (b, 64, 1, 64), (c, ix, 3, 64)]
  | 4 => [(a, 320, 3, 64), (b, (if bf16 then 512 else 256) * dField d 40 1, 3, 64)]
  | 5 => [(a, 320, 3, 64)]
  | 6 => [(a, 320, 3, 64), (b, 320, 3, 64)]
  | 7 => [(a, 320, 3, 64)]
  | 8 => [(a, 64, 3, 64), if dMode d = 0 then (c, 512, 3, 64) else (c, 68, 1, 64)] ++
      (if dMode d = 0 then [] else [(b, 8, 0, 8)]) ++ (if dMode d = 2 then [(dField d 40 8, 320, 3, 64)] else [])
  | 9 => [(a, 64 * dField d 48 2 * ceilDiv (dField d 50 2) 16, 0, 64), (b, 64 * dField d 48 2, 1, 64),
          (c, 64 * dField d 50 2 * ceilDiv (dField d 53 2) 16, 1, 64), (dField d 40 8, 64 * ceilDiv (dField d 50 2) 32, 1, 64)]
  | 10 => [(a, 64 * max 1 (dField d 40 4), 2, 64)]
  | _ => []

/-- R269: whether a range lies in one region that a Weevil reaches in a direction: 0 read, 1 write, 2 window, 3 scratch. -/
def State.wvRegion (s : State) (k a len dir : Nat) : Bool :=
  let e := a + max len 1 - 1
  let poll := blockAddr 4 0x300000
  let bank := blockAddr 4 (0x200000 + 0x10000 * (s.rget .STR_STEP % 2))
  (dir = 0 && decide (poll ≤ a) && decide (e < poll + 0x10000)) ||
  (dir = 1 && decide (bank ≤ a) && decide (e < bank + 0x10000)) ||
  (match placeOf a, placeOf e with
   | .vault n c _, .vault n' c' _ => dir ≠ 3 && decide (n / 8 = k) && n = n' && c = c'
   | .scratch n _, .scratch n' _ => decide (n / 8 = k) && n = n'
   | _, _ => false)

/-- Bytes that hold a field in an operation, beyond OP, MODE, TAG and RSV. -/
def dUsed (d : List Byte) : List (Nat × Nat) :=
  match dOp d with
  | 1 => [(16, 16), (40, 4)]
  | 2 => [(16, 24), (40, 9)]
  | 3 => [(16, 24), (40, 8)]
  | 4 => [(16, 16), (40, 1)]
  | 5 => [(16, 8), (40, 1)]
  | 6 => [(16, 16), (40, 1)]
  | 7 => [(16, 8), (40, 2)]
  | 8 => [(16, 24), (40, 9)]
  | 9 => [(16, 24), (40, 15)]
  | 10 => [(16, 8), (40, 8)]
  | _ => []

/-- Operand values in range (R279). -/
def dInRange (d : List Byte) : Bool :=
  let inR (o n lo hi : Nat) : Bool := decide (lo ≤ dField d o n) && decide (dField d o n ≤ hi)
  match dOp d with
  | 1 => inR 40 4 1 (2 ^ 24)
  | 2 => if dMode d = 1 then inR 48 1 1 128
         else inR 40 2 1 4096 && inR 42 2 1 256 && decide (dField d 44 4 % 64 = 0)
  | 3 => inR 40 2 1 4096 && inR 42 2 1 256 && decide (dField d 44 4 % 64 = 0)
  | 4 => inR 40 1 1 64
  | 5 => inR 40 1 0 127
  | 6 => inR 40 1 1 128
  | 7 => inR 40 1 0 127 && inR 41 1 0 64
  | 8 => inR 48 1 1 64
  | 9 => inR 48 2 1 256 && inR 50 2 1 256 && inR 52 1 1 8 && inR 53 2 1 4096
  | 10 => inR 44 4 1 65536
  | _ => true

/-- The modes of each OP (R279). -/
def dModeOk (op mode : Nat) : Bool :=
  match op with
  | 2 => decide (mode ≤ 1)
  | 7 => decide (mode ≤ 3)
  | 8 => decide (mode ≤ 2)
  | _ => mode = 0

/-- R280: the status and cause a descriptor is turned away with. -/
def State.dCheck (s : State) (k : Nat) (d : List Byte) (bf16 : Bool) : Option (Nat × Nat) :=
  let used := dUsed d
  let zero (i : Nat) : Bool := (used.any fun u => decide (u.1 ≤ i) && decide (i < u.1 + u.2)) || dField d i 1 = 0
  let addrs := (dSpans d bf16).map (·.1)
  if 10 < dOp d ∨ !dModeOk (dOp d) (dMode d) ∨ dField d 1 1 / 64 ≠ 0 ∨ dField d 2 2 ≠ 0 ∨ dField d 12 4 ≠ 0 ∨
      !((List.range 48).all fun i => zero (16 + i)) ∨ (addrs.any fun a => decide (2 ^ 48 ≤ a)) ∨ !dInRange d then
    some (ST.DESC, 5)
  else if (dSpans d bf16).any fun p => p.1 % p.2.2.2 ≠ 0 then some (ST.UNALIGNED, 8)
  else if (dSpans d bf16).any fun p => !s.wvRegion k p.1 p.2.1 p.2.2.1 then some (ST.PROT, 9)
  else none

/-- D of R281: from a line's source access to its destination access. -/
def lineDelay (src dst : Nat) : Nat :=
  match placeOf src, placeOf dst with
  | .vault _ _ _, .vault _ _ _ => 21
  | .vault _ _ _, _ => 20
  | .reg _ _, _ => 8
  | _, _ => 1

/-- R281: the worst-case duration. -/
def dWorst (d : List Byte) (bf16 : Bool) : Nat :=
  let nl := dNl d
  let per := if bf16 then 32 else 64
  let n2 := dField d 40 2
  let el := n2 * dField d 42 2
  match dOp d with
  | 0 => 8
  | 1 => 5 + ceilDiv (dField d 40 4) nl + lineDelay (dField d 16 8) (dField d 24 8)
  | 2 => if dMode d = 1 then 27 + 128 * dField d 48 1
         else 5 + (ceilDiv n2 32 + 1) + ceilDiv el nl + lineDelay (dField d 16 8) (dField d 24 8)
  | 3 => 5 + (ceilDiv n2 32 + 1) + ceilDiv el nl + lineDelay (dField d 16 8) (dField d 24 8)
  | 4 => 10 + 8 * ceilDiv (dField d 40 1) per + 160 * dCbnd d + (if bf16 then 4 else 2) * dField d 40 1
  | 5 => 171
  | 6 => 12 + 4 * dField d 40 1
  | 7 => match dMode d with
    | 0 => 16 | 1 => 524 | 2 => 12 | _ => 24
  | 8 => match dMode d with
    | 0 => 74 | 1 => 72 | _ => if bf16 then 1927 else 1675
  | 9 =>
    let b := ceilDiv (dField d 50 2) 16
    21 + ceilDiv (dField d 48 2 * b) 2 +
      ceilDiv (dField d 48 2 + dField d 50 2 * ceilDiv (dField d 53 2) 16 + ceilDiv (dField d 50 2) 32) 2
  | _ => 25 + ceilDiv (dField d 44 4) nl

/-- R282: page operations. -/
def isPageOp (d : List Byte) : Bool := (4 ≤ dOp d && dOp d ≤ 7) || (dOp d = 8 && dMode d = 2)

/-- The segment descriptor of a page operation: core and scratch offset. -/
def dSeg (d : List Byte) : Nat × Nat :=
  match placeOf (if dOp d = 8 then dField d 40 8 else dField d 16 8) with
  | .scratch n off => (n, off)
  | _ => (0, 0)

/-- PFMT of the segment that a page operation names, as it stands (R281). -/
def State.dBf16 (s : State) (d : List Byte) : Bool :=
  isPageOp d && ((s.peekScratch (dSeg d).1 ((dSeg d).2 + 7) 1).headD none |>.getD 0).getLsbD 4

/-! ### Reading ahead -/

/-- One line of any region as it stands. -/
def State.peekLine (s : State) (a : Nat) : Line :=
  match placeOf a with
  | .scratch n off => s.peekScratch n (off / 64 * 64) 64
  | .vault n c off =>
    if !s.present (.vault n c off) then List.replicate 64 none
    else
      let w := a / 64 * 2
      let er := s.erasures (.vault n c)
      let one (w : Nat) : Line := let d := (s.decodeWord 3 w er).1
        match ((s.vc n c).entry w) with
        | some e => mergeOver d e
        | none => d
      one w ++ one (w + 1)
  | .reg _ _ => (s.bytes (a / 64 * 64) 64).map some
  | _ => List.replicate 64 none

/-- Whether a line that is present holds a word that decodes uncorrectable. -/
def State.lineUncorr (s : State) (a : Nat) : Bool :=
  match placeOf a with
  | .scratch n off => s.scratchUncorr n (off / 64 * 64) 64
  | .vault n c off =>
    s.present (.vault n c off) && [0, 1].any fun i => (s.decodeWord 3 (a / 64 * 2 + i) (s.erasures (.vault n c))).2 = .uncorr
  | _ => false

/-- R237: a page whose lines lie above the channel is logged with its page-list entry; the operation goes on. -/
def State.logLost (s : State) (n : Nat) (g : Seg) (e p : Nat) : State :=
  if (s.pageLine n p 255).isNone then s.errKVP n (g.entryAddr n e) ST.ABSENT 3 else s

/-- Mark the rows to close (R270): an access leaves its row open where the next access of its direction to the same channel
is the consecutive line in the same row. -/
def markClose : List WAcc → List WAcc
  | [] => []
  | a :: l =>
    let next := l.find? fun b => b.write = a.write && b.addr / 0x2000000 = a.addr / 0x2000000
    let keepOpen := match next with
      | some b => let c := Chan.vault 0 0
        b.addr = a.addr + 64 && c.rowOf (a.addr % 0x2000000) = c.rowOf (b.addr % 0x2000000) &&
          c.bankOf (a.addr % 0x2000000) = c.bankOf (b.addr % 0x2000000)
      | none => false
    { a with close := !keepOpen } :: markClose l

/-! ### What each operation does -/

/-- Buffer slots from here on hold what is no line moved: index lists, descriptors, logits. -/
def AUX : Nat := 2 ^ 32

/-- Numbers of 4 bytes in a list of lines; `none` where a byte is poisoned. -/
def wordAt (l : Line) (i : Nat) : Option Nat := lineNat ((l.drop (4 * i)).take 4)

/-- The accesses that move `n` lines (R283): from `src j` to `dst j`. -/
def moveLines (start nl d : Nat) (ls : List (Nat × Option Nat × Option Nat)) : List WAcc :=
  ls.flatMap fun p =>
    let t := start + p.1 / nl
    (match p.2.1 with
     | some a => [{ due := t, write := false, addr := a, line := p.1 }]
     | none => []) ++
    (match p.2.2 with
     | some a => [{ due := t + d, write := true, addr := a, line := p.1 }]
     | none => [])

/-- The SCNT from which the offsets of a running descriptor count: its start, or the cycle in which the page unit took it. -/
def WRun.base (r : WRun) : Nat := (r.fin.getD 0 + 1) - r.rsv

/-- The last cycle of its occupancy. -/
def WRun.last (r : WRun) : Nat := r.fin.getD 0

/-- A line of the descriptor's buffer. -/
def WRun.line (r : WRun) (l : Nat) : Line := match r.buf.find? fun p => p.1 = l with
  | some p => p.2
  | none => List.replicate 64 none

/-- The line moved that a buffer slot counts as (R283, R299): for an index line the first that it names. -/
def WRun.lineOf (r : WRun) (l : Nat) : Nat :=
  if l < AUX then l
  else if (r.op = 2 ∧ dMode r.desc = 0) ∨ r.op = 3 then 16 * (l - AUX) * dField r.desc 42 2 else 0

/-- More accesses, and lines to write. -/
def WRun.plan (r : WRun) (ws : List WAcc) : WRun := { r with todo := r.todo ++ markClose ws }
def WRun.acting (r : WRun) (as : List (Nat × WStep)) : WRun := { r with acts := r.acts ++ as.map fun a => (r.base + a.1, a.2) }

/-- The segment in hand. -/
def WRun.theSeg (r : WRun) : Seg := r.seg.getD (Seg.ofBytes 0 [])

/-- The index lists (R284): two lines per cycle from start + 4. -/
def indexReads (d : List Byte) (t : Nat) : List WAcc :=
  (List.range (ceilDiv (dField d 40 2) 16)).map fun i =>
    { due := t + 4 + i / 2, write := false, addr := dField d 32 8 + 64 * i, line := AUX + i }

/-- The five lines of a segment descriptor: lines 0 and 1 at start + 4, 2 and 3 at start + 5, and 4 at start + 6 (R285; for the page
operations DEDUCED). -/
def segReads (a t : Nat) : List WAcc := (List.range 5).map fun i =>
  { due := t + 4 + i / 2, write := false, addr := a + 64 * i, line := AUX + i, book := a }

/-- Q of R281. -/
def dQ (d : List Byte) : Nat := ceilDiv (dField d 40 2) 32 + 1

/-- The reads of TOPK_ROUTE take so many cycles (R281). -/
def routeCycles (d : List Byte) : Nat := ceilDiv (dField d 48 2 * ceilDiv (dField d 50 2) 16) 2

/-- The accesses and the steps of a descriptor that its own fields fix, from SCNT `t` on (R283 to R296). -/
def dOpening (d : List Byte) (t : Nat) : List WAcc × List (Nat × WStep) :=
  let a := dField d 16 8
  let b := dField d 24 8
  let nl := dNl d
  match dOp d with
  | 1 => (moveLines (t + 4) nl (lineDelay a b) ((List.range (dField d 40 4)).map fun j => (j, some (a + 64 * j), some (b + 64 * j))), [])
  | 2 => if dMode d = 1 then (segReads a t, [(5, .stagePlan false), (6, .stagePlan true)]) else (indexReads d t, [(3 + dQ d, .gatherPlan)])
  | 3 => (indexReads d t, [(3 + dQ d, .gatherPlan)])
  | 4 => (segReads a t, [(7, .segRead)])
  | 5 => (segReads a t, [(7, .segRead)])
  | 6 => (segReads a t ++ [{ due := t + 6, write := false, addr := b, line := AUX + 8, book := b }], [(7, .segRead)])
  | 7 => (segReads a t, [(7, .segRead)])
  | 8 =>
    let g := dField d 40 8
    ([{ due := t + 4, write := false, addr := a, line := AUX + 16, book := a }] ++
      (if dMode d = 0 then [] else [{ due := t + 5, write := false, addr := b / 64 * 64, line := AUX + 17, book := g }]) ++
      (if dMode d = 2 then { due := t + 4, write := false, addr := g, line := AUX, book := g } :: (List.range 4).map fun i =>
        { due := t + 71 + i / 2, write := false, addr := g + 64 * (i + 1), line := AUX + 1 + i, book := g } else []),
     (5, .treeWalk) :: if dMode d = 2 then [(72, .commitPlan)] else [])
  | 9 => ((List.range (dField d 48 2 * ceilDiv (dField d 50 2) 16)).map fun i =>
      { due := t + 4 + i / 2, write := false, addr := a + 64 * i, line := AUX + i }, [(3 + routeCycles d, .route)])
  | 10 => ((List.range (dField d 44 4)).map fun j => { due := t + 4 + j / nl, write := false, addr := a, line := j, window := true }, [])
  | _ => ([], [])

/-- Begin a descriptor that runs, in SCNT `t`. -/
def State.wvBegin (s : State) (k ch t : Nat) (r : WRun) : State :=
  let r := { r with fin := some (t + r.rsv - 1) }
  let (ws, as) := dOpening r.desc t
  s.setWch k ch { s.wch k ch with run := some ((r.plan ws).acting as) }

/-- R284: the lines that the indices give. -/
def WRun.gatherPlan (r : WRun) : WRun :=
  let d := r.desc
  let (a, b) := (dField d 16 8, dField d 24 8)
  let (el, estr) := (dField d 42 2, dField d 44 4)
  let es := (List.range (dField d 40 2)).map fun e => (e, wordAt (r.line (AUX + e / 16)) (e % 16))
  let els (e : Nat) : List (Nat × Nat) := (List.range el).map fun i => (e * el + i, 64 * i)
  let ls : List (Nat × Option Nat × Option Nat) := es.flatMap fun x => match x.2 with
    | some v => if v = 0xFFFFFFFF then [] else (els x.1).map fun i =>
        if r.op = 2 then (i.1, some ((a + estr * v + i.2) % 2 ^ 48), some (b + 64 * i.1))
        else (i.1, some (a + 64 * i.1), some ((b + estr * v + i.2) % 2 ^ 48))
    | none => if r.op = 2 then (els x.1).map fun i => (i.1, none, some (b + 64 * i.1)) else []
  let moved := (es.filter fun x => match x.2 with
    | some v => v ≠ 0xFFFFFFFF
    | none => false).length
  { r.plan (moveLines (r.base + 4 + dQ d) (dNl d) (lineDelay a b) ls) with result := moved }

/-- R285: the lines of the pages that the segment's list names. -/
def State.stagePlan (s : State) (k ch : Nat) (r : WRun) (late : Bool) : WRun × State :=
  let d := r.desc
  let (n, off) := dSeg d
  let b := dField d 24 8
  let npres := dField d 48 1
  let (g, s) := if late then
      let (l, s) := s.reveal (r.line (AUX + 4))
      let g := r.theSeg
      ({ g with pages := g.pages.take 96 ++ (List.range 32).map fun i => leNat ((l.drop (2 * i)).take 2) }, s)
    else
      let (l, s) := s.reveal ((List.range 4).flatMap fun i => r.line (AUX + i))
      (Seg.ofBytes off (l ++ List.replicate 64 0), s)
  let ovr := decide (npres < g.npg)
  let s := if ovr && !late then s.schedWVL k ch (scratchAddr n off) ST.BOUND 13 else s
  let es := (List.range npres).filter fun e => decide (96 ≤ e) = late
  -- R14, R237: an entry whose page has no lines: it is logged, and its lines are poison
  let lost := es.filter fun e => !ovr && decide (e < g.npg) && decide (g.per * e < g.npos) &&
    (s.badPage n (g.page e) || g.page e = PG.NONE || (s.pageLine n (g.page e) 255).isNone)
  let s := lost.foldl (fun s e => (s.errKVP n (g.entryAddr n e) ST.ABSENT 3).errWVL k ch (g.entryAddr n e) ST.ABSENT 10) s
  let lpp := if g.bf16 then 4 else 2
  let held (e j : Nat) : Bool := decide (e < g.npg) && decide (g.per * e + j % 128 / lpp < g.npos)
  let acc := es.flatMap fun e => (List.range 256).flatMap fun j =>
    let line := 256 * e + j
    let at_ := r.base + 6 + 128 * e + j / 2
    (match (if held e j && !ovr && !lost.contains e then s.pageLine n (g.page e) j else none) with
     | some x => [({ due := at_, write := false, addr := x, line := line } : WAcc)]
     | none => []) ++
    [({ due := at_ + lineDelay 0 b, write := true, addr := b + 64 * line, line := line } : WAcc)]
  let zeros := es.flatMap fun e => (List.range 256).filterMap fun j =>
    if ovr || held e j then none else some (256 * e + j, List.replicate 64 (some 0))
  let r := { r.plan acc with buf := r.buf ++ zeros, seg := some g }
  (match lost.head? with
   | some e => if r.errLine.isSome then r else { r with status := ST.ABSENT, errLine := some (256 * e) }
   | none => if ovr then { r with status := ST.BOUND, errLine := some 0 } else r, s)

/-! ### Page operations (R286 to R292) -/

/-- The 256 lines of page `p` copied to page `q`, two a cycle, each written 21 cycles after its read (R287). -/
def State.copyPage (s : State) (n p q at_ book : Nat) : List WAcc := (List.range 256).flatMap fun j =>
  (match s.pageLine n p j with
   | some x => [({ due := at_ + j / 2, write := false, addr := x, line := AUX + 64 + j, book := book } : WAcc)]
   | none => []) ++
  (match s.pageLine n q j with
   | some x => [({ due := at_ + j / 2 + 21, write := true, addr := x, line := AUX + 64 + j } : WAcc)]
   | none => [])

/-- The position at which an append begins, and the place of its first position in its page. -/
def Seg.pos (g : Seg) : Nat := g.npos + g.prov
def Seg.slotOf (g : Seg) : Nat := g.pos % g.per

/-- The page phase of R286. -/
def appendPhase (d : List Byte) (g : Seg) : Nat := 8 * ceilDiv (dField d 40 1) g.per + 160 * dCbnd d

/-- R244, R286: PAGE_APPEND has read its segment descriptor. -/
def State.appendRead (s : State) (k ch : Nat) (r : WRun) (g : Seg) : WRun × State :=
  let core := (dSeg r.desc).1
  let n := dField r.desc 40 1
  let e := g.pos / g.per
  let mid := g.slotOf ≠ 0 && decide (g.pos < 4096)
  let ends (r : WRun) (st : Nat) : WRun := { r with status := st, stop := true }
  if g.trunc then (ends r ST.TRUNC, s)
  else if mid && (g.page e = PG.NONE || s.badPage core (g.page e)) then (ends r ST.ABSENT, s.pageAbsent core g e)
  else
    let (ref, s) := if mid then s.refcnt core (g.page e) else (0, s)
    if dCbnd r.desc = 0 ∧ 1 < ref then
      (ends r ST.RSV, s.schedWVL k ch (scratchAddr (s.ringCore k ch) (s.descOff k ch r.idx)) ST.RSV 4)
    else
      let ph := appendPhase r.desc g
      let as := (if dCbnd r.desc = 1 then [(8, WStep.cowTake), (167, .cowEnd)] else []) ++
        ((List.range (ceilDiv n g.per)).map fun i => (8 + 160 * dCbnd r.desc + 8 * i, WStep.openPage i)) ++
        [(5 + ph, .putPlan), (6 + ph, .segEnd)]
      (({ r with result := min n (4096 - g.pos) } : WRun).acting as, s)

/-- R246: whether PAGE_SHARE is turned away. -/
def shareRefused (src dst : Seg) (kk : Nat) : Bool :=
  dst.npg ≠ 0 || dst.bf16 != src.bf16 || dst.kenc ≠ src.kenc || dst.kscale ≠ src.kscale || dst.vscale ≠ src.vscale || decide (src.npg < kk)

/-- The segment descriptor of a page operation has been read: the steps of the operation are known (R286 to R288). -/
def State.segRead (s : State) (k ch : Nat) (r : WRun) : WRun × State :=
  let d := r.desc
  let (core, off) := dSeg d
  let (l, s) := s.reveal ((List.range 5).flatMap fun i => r.line (AUX + i))
  let g := Seg.ofBytes off l
  match dOp d with
  | 4 => s.appendRead k ch { r with seg := some g } g
  | 5 => (({ r with seg := some g } : WRun).acting [(8, .cowTake), (167, .cowEnd), (168, .segEnd)], s)
  | 6 =>
    match placeOf (dField d 24 8) with
    | .scratch n2 off2 =>
      let (l2, s) := s.reveal (r.line (AUX + 8))
      let dst := Seg.ofBytes off2 (l2 ++ List.replicate 256 0xFF)
      let kk := dField d 40 1
      if n2 ≠ core || shareRefused g dst kk then
        ({ r with status := ST.KV_SLOT, stop := true }, s.errKVP core (scratchAddr n2 off2) ST.KV_SLOT 9)
      else
        (({ r with seg := some dst, src := some g } : WRun).acting
          (((List.range kk).map fun e => (8 + 4 * e, WStep.share e)) ++ [(5 + 4 * kk, .segEnd)]), s)
    | _ => (r, s)
  | _ => match dMode d with
    | 0 => (({ r with seg := some g } : WRun).acting [(8, .drop 0), (9, .segEnd)], s)
    | 1 => (({ r with seg := some g } : WRun).acting
        (((List.range (min g.npg 128)).map fun e => (8 + 4 * e, WStep.drop e)) ++ [(517, .segEnd)]), s)
    | 2 => (({ r with seg := some (if g.trunc then g else g.setTrunc 3) } : WRun).acting [(8, .segEnd)], s)
    | _ => (({ r with seg := some { g with prov := min g.prov (dField d 41 1) } } : WRun).acting
        [(8, .drop 0), (12, .drop 1), (16, .drop 2), (18, .segEnd)], s)

/-- The entry a copy-on-write is about. -/
def WRun.cowEntry (r : WRun) : Nat := if r.op = 4 then r.theSeg.pos / r.theSeg.per else dField r.desc 40 1

/-- R287: the phase takes its page and plans the copy. Only the first position of an append can land in a shared page (R286). -/
def State.cowTake (s : State) (r : WRun) : WRun × State :=
  let core := (dSeg r.desc).1
  let g := r.theSeg
  let e := r.cowEntry
  if r.stop || (r.op = 4 && (g.slotOf = 0 || decide (4096 ≤ g.pos))) then (r, s)
  else match State.pageCowTake s core g e with
  | (st, cp, g, s) =>
    let r := { r with seg := some g, cow := cp }
    if st ≠ ST.OK then ({ r with status := st, stop := true, result := 0 }, s)
    else match cp with
      | some (p, q) =>
        (r.plan (s.copyPage core p q (r.base + 16) (g.entryAddr core e)), (s.logLost core g e p).logLost core g e q)
      | none => (r, s)

/-- R287: the entry is repointed and the old page's count decremented. -/
def State.cowEnd (s : State) (r : WRun) : WRun × State :=
  match r.cow with
  | some (p, q) =>
    let (g, s) := State.pageCowEnd s (dSeg r.desc).1 r.theSeg r.cowEntry p q
    ({ r with seg := some g, result := if r.op = 5 then 1 else r.result }, s)
  | none => (r, s)

/-- R244, R286: the append's i-th page is taken. -/
def State.openPage (s : State) (r : WRun) (i : Nat) : WRun × State :=
  let g := r.theSeg
  let k := (if g.slotOf = 0 then 0 else g.per - g.slotOf) + i * g.per
  if r.stop || decide (r.result ≤ k) then (r, s)
  else match s.openEntry (dSeg r.desc).1 g ((g.pos + k) / g.per) with
  | (true, g, s) => ({ r with seg := some g }, s)
  | (false, g, s) => ({ r with seg := some g, status := ST.TRUNC, stop := true, result := k }, s)

/-- R286: position k is written in the C cycles from offset 8 + page phase + C × k; each line is read one cycle earlier. -/
def State.putPlan (s : State) (r : WRun) : WRun × State :=
  let d := r.desc
  let core := (dSeg d).1
  let b := dField d 24 8
  let g := r.theSeg
  let c := if g.bf16 then 4 else 2
  let (st, g', s) := if !r.stop ∧ r.result < dField d 40 1 then s.segFull core g else (r.status, g, s)
  let ks := List.range r.result
  let s := ks.foldl (fun s k => s.logLost core g ((g.pos + k) / g.per) (g.page ((g.pos + k) / g.per))) s
  let puts := ks.flatMap fun k => (List.range (2 * c)).flatMap fun i =>
    let (p, slot) := (g.page ((g.pos + k) / g.per), (g.pos + k) % g.per)
    let at_ := r.base + 8 + appendPhase d g + c * k + i / 2
    ({ due := at_ - 1, write := false, addr := b + 64 * (2 * c * k + i), line := 2 * c * k + i, book := scratchAddr core g.off } : WAcc) ::
    (match s.pageLine core p (if i < c then c * slot + i else 128 + c * slot + (i - c)) with
     | some x => [({ due := at_, write := true, addr := x, line := 2 * c * k + i } : WAcc)]
     | none => [])
  ({ r.plan puts with status := st, seg := some { g' with prov := g'.prov + r.result } },
    s.bump F.KVP_APPCNT_COUNT core 0 r.result)

/-- R246, R288: entry `e` is shared. -/
def State.share (s : State) (r : WRun) (e : Nat) : WRun × State :=
  let src := r.src.getD r.theSeg
  if r.stop then (r, s)
  else match s.shareEntry (dSeg r.desc).1 src r.theSeg e with
  | (st, g, s) =>
    if st ≠ ST.OK then ({ r with status := st, stop := true, seg := some g }, s)
    else
      let g := if e + 1 = dField r.desc 40 1 then { g with npos := min src.npos (src.per * (e + 1)) } else g
      ({ r with seg := some g, result := e + 1 }, s)

/-- R246, R288: the i-th drop of PAGE_FREE, and of the rollback of COMMIT. A rollback drops at most three entries that the step opened; the last
drop takes what a descriptor names beyond them. -/
def State.dropStep (s : State) (r : WRun) (i : Nat) : WRun × State :=
  let d := r.desc
  let g := r.theSeg
  let back := dOp d = 8 || dMode d = 3
  let es := if !back then [if dMode d = 0 then dField d 40 1 else i]
    else (List.range (min g.npg 128)).filter fun e => if i = 2 then g.need + 2 ≤ e else e = g.need + i
  if r.stop then (r, s)
  else
    let (st, m, g, s) := if !back && dMode d = 0 then s.dropPage (dSeg d).1 g (dField d 40 1) else State.dropPages (dSeg d).1 es 0 g s
    ({ r with seg := some g, result := if dOp d = 8 then r.result else r.result + m, stop := st = ST.ABSENT,
              status := if st = ST.OK then r.status else st }, s)

/-- The last cycles write what the operation changed in the segment descriptor, two lines a cycle beside the status record (R286, R291). -/
def WRun.segEnd (r : WRun) : WRun :=
  let d := r.desc
  let g := r.theSeg
  let g := if r.stop then g
    else if dOp d = 7 ∧ dMode d = 1 then { g with npg := 0, npos := 0, prov := 0, flags := 0 }
    else if dOp d = 8 ∨ (dOp d = 7 ∧ dMode d = 3) then { g with npg := g.need } else g
  let bytes : Line := g.bytes.map some
  let (core, _) := dSeg d
  let old (i : Nat) : Line := if dOp d ≠ 6 then r.line (AUX + i) else if i = 0 then r.line (AUX + 8) else List.replicate 64 (some 0xFF)
  let new := ((List.range 5).map fun i => (i, (bytes.drop (64 * i)).take 64)).filter fun p => old p.1 ≠ p.2
  let m := new.length
  { r with
    seg := some g
    buf := r.buf ++ new.map fun p => (AUX + 32 + p.1, p.2)
    todo := r.todo ++ new.zipIdx.map fun p =>
      { due := r.last - (m - p.2) / 2, write := true, addr := scratchAddr core g.off + 64 * p.1.1, line := AUX + 32 + p.1.1 } }

/-- R265, R290: the parent array is checked and the walk made. -/
def State.treeStep (s : State) (k : Nat) (r : WRun) : WRun × State :=
  let d := r.desc
  let (a, b, out) := (dField d 16 8, dField d 24 8, dField d 32 8)
  let pl := r.line (AUX + 16)
  let accL := ((r.line (AUX + 17)).drop (b % 64)).take 8
  let n := dField d 48 1
  let par := pl.map fun x => (x.getD 0).toNat
  let bad := !(pl.all Option.isSome) || (dMode d ≠ 0 && !(accL.all Option.isSome))
  let (l0, s) := if dMode d = 2 then s.reveal (r.line AUX) else ([], s)
  let g := Seg.ofBytes (dSeg d).2 (l0 ++ List.replicate 256 0xFF)
  if !bad ∧ !treeOk par n then
    ({ r with status := ST.TREE, stop := true, todo := r.todo.filter fun x => x.line < AUX }, s.errKVP (match placeOf a with
      | .scratch pn _ => pn
      | _ => 8 * k) a ST.TREE 8)
  else if dMode d = 0 then
    let ms := treeMasks par n []
    let bytes : Line := (List.range 64).flatMap fun i =>
      if bad ∨ r.hit then List.replicate 8 none else (leBytes 8 ((ms[i]?).getD 0)).map some
    ({ (r.plan ((List.range 8).map fun j => { due := r.base + 69 + j / 2, write := true, addr := out + 64 * j, line := j })) with
       buf := r.buf ++ (List.range 8).map fun j => (j, (bytes.drop (64 * j)).take 64) }, s)
  else
    let accept := leNat (accL.map fun x => x.getD 0)
    let accept := if dMode d = 2 then accept % 2 ^ min 64 g.prov else accept
    let path := if bad then [0] else treeWalk par accept n 64 0
    let bytes : Line := (leBytes 4 path.length ++ path.map fun x => BitVec.ofNat 8 x).map fun x => if bad ∨ r.hit then none else some x
    let ends := dMode d = 2 && g.trunc
    let r := if ends then { r with todo := r.todo.filter fun x => x.line < AUX } else r
    let wr (j : Nat) : WAcc := { due := r.base + 70, write := true, addr := out + 64 * j, line := j, keep := min 64 (bytes.length - 64 * j) }
    ({ (r.plan (if 64 < bytes.length then [wr 0, wr 1] else [wr 0])) with
       buf := r.buf ++ [(0, bytes.take 64), (1, bytes.drop 64)], path := path, result := path.length, seg := some g,
       status := if ends then ST.TRUNC else r.status, stop := ends }, s)

/-- R291: the 63 copy blocks, and the rollback of the last 27 cycles. A page number that no page has ends the operation (R247). -/
def State.commitPlan (s : State) (r : WRun) : WRun × State :=
  if r.stop then (r, s)
  else
    let d := r.desc
    let (core, off) := dSeg d
    let (l, s) := s.reveal ((List.range 4).flatMap fun i => r.line (AUX + 1 + i))
    let g := { r.theSeg with pages := (Seg.ofBytes off (List.replicate 64 0 ++ l)).pages }
    let L := r.path.length
    let c := if g.bf16 then 8 else 4
    let place (p i : Nat) : Option Nat :=
      let q := g.page (p / g.per)
      let x := c / 2 * (p % g.per)
      if q = PG.NONE ∨ s.badPage core q then none else s.pageLine core q (if i < c / 2 then x + i else 128 + x + (i - c / 2))
    let from_ (kb : Nat) : Nat := g.npos + (r.path[kb + 1]?).getD 0
    let to_ (kb : Nat) : Nat := g.npos + kb + 1
    let ents (kb : Nat) : List Nat := [from_ kb / g.per, to_ kb / g.per]
    let stop := (List.range (L - 1)).find? fun kb => (ents kb).any fun e => s.badPage core (g.page e)
    let kbs := List.range (stop.getD (L - 1))
    let s := kbs.foldl (fun s kb => (ents kb).foldl (fun s e =>
      if g.page e = PG.NONE then s else s.logLost core g e (g.page e)) s) s
    let copies := kbs.flatMap fun kb => (List.range c).flatMap fun i =>
      let at_ := r.base + 73 + kb * (c + 21) + i
      (match place (from_ kb) i with
       | some x => [({ due := at_, write := false, addr := x, line := AUX + 64 + 8 * kb + i, book := g.entryAddr core (from_ kb / g.per) } : WAcc)]
       | none => []) ++
      (match place (to_ kb) i with
       | some x => [({ due := at_ + 21, write := true, addr := x, line := AUX + 64 + 8 * kb + i } : WAcc)]
       | none => [])
    let r := r.plan copies
    match stop with
    | some kb =>
      let e := ((ents kb).find? fun e => s.badPage core (g.page e)).getD 0
      ({ r with status := ST.ABSENT, stop := true }, s.pageAbsent core g e)
    | none =>
      let w := dWorst d g.bf16
      (({ r with seg := some { g with prov := min g.prov L } } : WRun).acting
        [(w - 27, .drop 0), (w - 23, .drop 1), (w - 19, .drop 2), (w - 14, .segEnd)], s)

/-- R293 to R296, R299: the selections, the token records, the dispatch lists and the counts. -/
def WRun.route (r : WRun) : WRun :=
  let d := r.desc
  let (ntok, nexp, kk, cap) := (dField d 48 2, dField d 50 2, dField d 52 1, dField d 53 2)
  let bl := ceilDiv nexp 16
  let (b, lists, cnta) := (dField d 24 8, dField d 32 8, dField d 40 8)
  -- from the first token with an uncorrectable logit on no token is finished
  let firstBad := match r.failLine with
    | some l => l / bl
    | none => ntok
  let sel := (List.range ntok).map fun tk =>
    let l : Line := (List.range bl).flatMap fun i => r.line (AUX + bl * tk + i)
    let xs := (List.range nexp).map fun x => wordAt l x
    if xs.all Option.isSome ∧ !r.hit ∧ tk < firstBad then some (tkMerge kk [] (xs.zipIdx.map fun p => (p.1.getD 0, p.2))) else none
  let hits (x : Nat) : List (Nat × Nat) := sel.zipIdx.flatMap fun p => match p.1 with
    | some l => (l.zipIdx.filter fun q => q.1.2 = x).map fun q => (p.2, q.2)
    | none => []
  let recs : List Line := sel.zipIdx.map fun p => match p.1 with
    | none => List.replicate 64 none
    | some l => ((List.range 8).flatMap fun j => match l[j]? with
      | some (v, x) =>
        let pos := ((hits x).filter fun h => h.1 < p.2).length
        leBytes 4 v ++ leBytes 2 x ++ leBytes 2 (pos % 2 ^ 15 + (if cap ≤ pos then 2 ^ 15 else 0))
      | none => leBytes 4 0xFF800000 ++ leBytes 2 0xFFFF ++ leBytes 2 0).map some
  let lines := ceilDiv cap 16
  let hurt (l : List Byte) : Line := l.map fun x => if r.hit then none else some x
  let llines : List Line := (List.range nexp).flatMap fun x =>
    let es := (hits x).take cap
    let bytes := (List.range (16 * lines)).flatMap fun i => match es[i]? with
      | some (tk, j) => leBytes 4 (tk + j * 2 ^ 16)
      | none => leBytes 4 0xFFFFFFFF
    (List.range lines).map fun i => hurt ((bytes.drop (64 * i)).take 64)
  let clines : List Line := (List.range (ceilDiv nexp 32)).map fun i => hurt ((List.range 32).flatMap fun j =>
    leBytes 2 (if 32 * i + j < nexp then min cap (hits (32 * i + j)).length else 0))
  let at_ (base : Nat) (ls : List Line) : List (Nat × Line) := ls.zipIdx.map fun p => (base + 64 * p.2, p.1)
  let out := at_ b recs ++ at_ lists llines ++ at_ cnta clines
  { (r.plan (out.zipIdx.map fun p => { due := r.base + 20 + routeCycles d + p.2 / 2, write := true, addr := p.1.1, line := p.2 })) with
    buf := r.buf ++ out.zipIdx.map fun p => (p.2, p.1.2), result := ((List.range nexp).map fun x => (hits x).length - cap).sum,
    failLine := none }

/-- A step of the descriptor that runs on a channel. -/
def State.wvAct (s : State) (k ch : Nat) (x : WStep) : State :=
  match (s.wch k ch).run with
  | none => s
  | some r =>
    let (r, s) := match x with
      | .gatherPlan => (r.gatherPlan, s)
      | .stagePlan late => s.stagePlan k ch r late
      | .segRead => s.segRead k ch r
      | .cowTake => s.cowTake r
      | .cowEnd => s.cowEnd r
      | .openPage i => s.openPage r i
      | .putPlan => s.putPlan r
      | .share e => s.share r e
      | .drop i => s.dropStep r i
      | .segEnd => (r.segEnd, s)
      | .treeWalk => s.treeStep k r
      | .commitPlan => s.commitPlan r
      | .route => (r.route, s)
    s.setWch k ch { s.wch k ch with run := some r }

/-- The steps that fall in SCNT `t`, after the cycle's accesses. -/
def State.wvActs (s : State) (t : Nat) : State :=
  s.wvl.foldl (fun s p => p.2.chs.foldl (fun s q =>
    match (s.wch p.1 q.1).run with
    | none => s
    | some r =>
      let now := (r.acts.filter fun a => decide (a.1 ≤ t)).map (·.2)
      if now.isEmpty then s
      else
        now.foldl (fun s x => s.wvAct p.1 q.1 x)
          (s.setWch p.1 q.1 { s.wch p.1 q.1 with run := some { r with acts := r.acts.filter fun a => decide (t < a.1) } })) s) s

/-! ### Starting, taking the page unit, completing -/

/-- The operation that a descriptor read at a start begins: NOP stands also for one that cannot be used and for a reserved OP (R280). -/
def WGot.desc (g : WGot) : Option (List Byte) :=
  if !g.refused && !g.uncorr && g.line.all Option.isSome then some (g.line.map fun b => b.getD 0) else none
def WGot.op (g : WGot) : Nat := match g.desc with
  | some d => if 10 < dOp d then 0 else dOp d
  | none => 0
def WGot.page (g : WGot) : Bool := match g.desc with
  | some d => isPageOp d
  | none => false

/-- Whether the descriptor that a channel has read is a page operation. -/
def State.pageNext (s : State) (k ch : Nat) : Bool := (s.wch k ch).run.isNone && (match (s.wch k ch).got with
  | some g => g.page
  | none => false)

/-- Whether a channel may start now the descriptor that it has read, whose operation is `op`: page operations of one cycle reach the page unit
in order of channel number (R242). -/
def State.wvReady (s : State) (k ch op : Nat) : Bool :=
  s.str.st = .running && s.stall.frz.isNone && (s.wch k ch).run.isNone && (match (s.wch k ch).got with
    | some g => g.op = op
    | none => false) && !(s.pageNext k ch && (List.range ch).any fun x => s.pageNext k x)

/-- R250: a page operation that holds the page unit in the last 384 cc of a step; it is taken in SCNT `t`. -/
def State.windowCheck (s : State) (r : WRun) (t : Nat) : State :=
  if s.str.stepBase + s.ctlStepLen < t + r.rsv + 384 then
    let (n, off) := dSeg r.desc
    (s.errKVP n (scratchAddr n off) 0 4).sched n 14 4
  else s

/-- R250: in the last 384 cc of a step a page unit that nothing holds or waits for has begun the boundary actions: it is held until the
step boundary. -/
def State.windowHold (s : State) (k t : Nat) : State :=
  let w := s.wv k
  let end_ := if t < s.str.stepBase then s.str.stepBase else s.str.stepBase + s.ctlStepLen
  if end_ ≤ t + 384 ∧ t < end_ ∧ w.wait.isEmpty ∧ w.puFree ≤ t then s.setWv k { w with puFree := end_ } else s

/-- The page unit takes a page operation in SCNT `t` (R282). -/
def State.puTake (s : State) (k ch : Nat) (r : WRun) (t : Nat) : State :=
  let s := s.windowCheck r t
  let s := s.setWv k { s.wv k with puFree := t + r.rsv }
  let s := ((s.fset F.WVL_PUSTAT_BUSY k 0 1).fset F.WVL_PUSTAT_CH k 0 ch).fset F.WVL_PUSTAT_OP k 0 r.op
  s.wvBegin k ch t r

/-- R277, R280 to R282: the descriptor that a channel has read in the cycle before starts. -/
def State.wvStart (s : State) (k ch : Nat) (mismatch : Bool) : State :=
  let i := s.fget F.WVL_IDX_CONS k ch
  let n := s.ringCore k ch
  let off := s.descOff k ch i
  let t := s.now - 1
  let got := ((s.wch k ch).got).getD { line := [], refused := true }
  let s := s.setWch k ch { s.wch k ch with got := none }
  let occupy (s : State) (op tag rsv status : Nat) (d : List Byte) : State :=
    let r : WRun := { idx := i, op := op, tag := tag, start := t, rsv := rsv, fin := some (t + rsv - 1), desc := d, status := status,
                      halts := got.uncorr }
    let s := (s.fset F.WVL_CHCTL_BUSY k ch 1).fset F.WVL_CHCTL_CUROP k ch op
    s.setWch k ch { s.wch k ch with run := some r }
  match got.desc with
  | none => occupy s 0 0 8 (if got.uncorr then ST.UNCORR else ST.DESC) []
  | some d =>
    let bf16 := s.dBf16 d
    let op := dOp d
    match s.dCheck k d bf16 with
    | some (st, cause) => occupy (s.schedWVL k ch (scratchAddr n off) st cause) op (dField d 4 4) (dRsv d) st d
    | none =>
      if dRsv d < dWorst d bf16 then occupy (s.schedWVL k ch (scratchAddr n off) ST.RSV 4) op (dField d 4 4) (dRsv d) ST.RSV d
      else
        -- R296: the compare logic of TREE_WALK and TOPK_ROUTE is duplicated; R150 reports a mismatch to the ring core
        let hit := mismatch && (op = 8 || op = 9)
        let r : WRun := { idx := i, op := op, tag := dField d 4 4, start := t, rsv := dRsv d, fin := none, desc := d, hit := hit }
        let s := if hit then s.residueHit { core := n, unit := 7, check := 3, lane := 0, row := 0, part := 0 } else s
        let s := (s.fset F.WVL_CHCTL_BUSY k ch 1).fset F.WVL_CHCTL_CUROP k ch op
        if isPageOp d then
          let s := s.windowHold k t
          let w := s.wv k
          if w.wait.isEmpty ∧ w.puFree ≤ t then s.puTake k ch r t
          else
            let s := s.setWch k ch { s.wch k ch with run := some r }
            let before (x : Nat) : Bool := match (s.wch k x).run with
              | some q => decide (q.start < t) || (decide (q.start = t) && decide (x < ch))
              | none => true
            let w := s.wv k
            let s := s.setWv k { w with wait := (w.wait.filter before) ++ [ch] ++ (w.wait.filter fun x => !before x) }
            let s := s.fset F.WVL_PUSTAT_WAITING k 0 (s.fget F.WVL_PUSTAT_WAITING k + 1)
            s.schedWVL k ch (scratchAddr n off) 0 2
        else s.wvBegin k ch t r

/-- R282: the page unit, free again, takes the operation that waits first. -/
def State.puNext (s : State) (k : Nat) : State :=
  match (s.wv k).wait with
  | [] => s
  | ch :: rest =>
    let s := (s.setWv k { s.wv k with wait := rest }).fset F.WVL_PUSTAT_WAITING k 0 (s.fget F.WVL_PUSTAT_WAITING k - 1)
    match (s.wch k ch).run with
    | some r => s.puTake k ch r s.now
    | none => s

/-! ### The boundary actions (R248 to R250) -/

/-- Whether a page operation holds the page unit of a cluster beyond SCNT `t`. -/
def State.puHeld (s : State) (k t : Nat) : Bool := (s.wv k).chs.any fun p => match p.2.run with
  | some r => isPageOp r.desc && (match r.fin with
    | some f => decide (t < f)
    | none => false)
  | none => false

/-- R248: the boundary actions of every pool, with the KV_REFILL in progress in their third step. In a cluster whose page unit a page operation
holds, they begin when it ends (R250). -/
def State.kvStep (s : State) : State :=
  let doing := s.doing OP.KV_REFILL && s.kvMask.isNone
  let mask := match s.cmdOf OP.KV_REFILL with
    | some c => if doing then c.data else []
    | none => []
  let late := (s.wvl.map (·.1)).filter fun k => s.puHeld k s.now
  let s := late.foldl (fun s k => s.setWv k { s.wv k with kvLate := true }) s
  let (empty, s) := State.kvCoresStep (s.kvBooks.filter fun n => !late.contains (clusterOf n)) mask s
  if !doing then s
  else if late.isEmpty then s.complete OP.KV_REFILL (refillAnswer empty).1 (refillAnswer empty).2
  else { s with kvMask := some mask, kvEmpty := empty }

/-- R250: the boundary actions of a cluster's cores that began late, once no page operation holds the page unit or waits for it. -/
def State.kvLateStep (s : State) (k : Nat) : State :=
  if !(s.wv k).kvLate || !(s.wv k).wait.isEmpty then s
  else
    let s := s.setWv k { s.wv k with kvLate := false }
    let (empty, s) := State.kvCoresStep (s.kvBooks.filter fun n => clusterOf n = k) (s.kvMask.getD []) s
    let empty := s.kvEmpty ++ empty
    if s.kvMask.isSome && !(s.wvl.any fun p => p.2.kvLate) then
      { s.complete OP.KV_REFILL (refillAnswer empty).1 (refillAnswer empty).2 with kvMask := none, kvEmpty := [] }
    else { s with kvEmpty := empty }

/-- R275, R277: the end of a descriptor's occupancy. -/
def State.wvComplete (s : State) (k ch : Nat) (r : WRun) : State :=
  let st := if r.halts then ST.UNCORR else r.status
  let s := if r.lost then s else s.writeRecord k ch (s.statusOff k ch r.idx) st r.op r.idx r.tag r.result
  let s := (s.fset F.WVL_IDX_CONS k ch (s.fget F.WVL_IDX_CONS k ch + 1)).bump F.WVL_DESCCNT_COUNT k 0 1
  let s := (s.fset F.WVL_CHCTL_BUSY k ch 0).fset F.WVL_CHCTL_CUROP k ch 0
  let s := if isPageOp r.desc ∧ r.fin = some ((s.wv k).puFree - 1) then
      ((s.fset F.WVL_PUSTAT_BUSY k 0 0).fset F.WVL_PUSTAT_OP k 0 0).kvLateStep k
    else s
  s.setWch k ch { s.wch k ch with run := none, nextAt := s.now }

/-- STREAM_START and warm reset (R304): every channel back to index 0, enabled and not halted; nothing runs or waits. STR_STEP counts from 0,
so no pool has been exhausted in the current or last step (R268). -/
def State.wvReset (s : State) : State :=
  { ((s.rclear .WVL_IDX).rclear .WVL_CHCTL).rclear .WVL_PUSTAT with wvl := [], kvExh := [], kvMask := none, kvEmpty := [] }

end Sys2Proof.Machine
end

