-- ==== Sys2Proof/Machine/HostIo.lean ====
section
/-!
DEFINITION. Host accesses to memory, line by line: the permitted regions (R411), the host queues (R297, R337), the service of
a line, and the answers to RDMA READ and MEM_READ (R414, R425).
-/
namespace Sys2Proof.Machine

/-! ### Routers (R367 to R371) -/

def routerX (p : Nat) : Nat := p % 11
def routerY (p : Nat) : Nat := p / 11
def routerAt (x y : Nat) : Nat := 11 * y + x

/-- The link row of a half, and the column of a module (R370). -/
def linkRow (h : Nat) : Nat := if h = 0 then 5 else 0
def moduleCol (m : Nat) : Nat := 11 * m / 16
def moduleRouter (h m : Nat) : Nat := routerAt (moduleCol m) (linkRow h)
/-- LINK0 or LINK1 (R370). -/
def modulePort (m : Nat) : Nat := if 0 < m ∧ moduleCol (m - 1) = moduleCol m then 14 else 13

/-- R369: the stack of controller `k` of a half, and the STACK port of a queue. -/
def stackOf (h k : Nat) : Nat := if h = 0 then [0, 1, 4, 5].getD k 0 else [2, 3, 6, 7].getD k 0
def hasStackPort (p : Nat) : Bool := p % 2 = 0 && decide (p ≤ 62)

/-- R384, R481: whether the router of a physical cluster is dark. -/
def State.routerDark (s : State) (pi : Nat) : Bool :=
  let st := s.fget F.PWR_CLSTAT_STATE pi
  st = CL.DARK || st = CL.CHRYSALIS || st = CL.ENTERING || st = CL.LEAVING

/-- The router a mesh port leads to, and the port it arrives at. -/
def meshNext (p o : Nat) : Nat × Nat :=
  match o with
  | 8 => (p - 11, 10) | 9 => (p + 1, 11) | 10 => (p + 11, 8) | _ => (p - 1, 9)

/-- The mesh outputs that lead from one router towards another, of its row and of its column: the first is the next hop (R371). -/
def meshOutputs (a b : Nat) (rows : Bool) : List Nat :=
  let cx : List Nat := if routerX b < routerX a then [11] else if routerX a < routerX b then [9] else []
  let cy : List Nat := if routerY b < routerY a then [8] else if routerY a < routerY b then [10] else []
  if rows then cy ++ cx else cx ++ cy

/-- The routers of the route from one router to another, columns first or rows first. -/
def meshRoute (a b : Nat) (rows : Bool) : List Nat :=
  let xs := (List.range 11).filter fun x => decide (min (routerX a) (routerX b) ≤ x) && decide (x ≤ max (routerX a) (routerX b))
  let ys := (List.range 6).filter fun y => decide (min (routerY a) (routerY b) ≤ y) && decide (y ≤ max (routerY a) (routerY b))
  if rows then (ys.map fun y => routerAt (routerX a) y) ++ xs.map fun x => routerAt x (routerY b)
  else (xs.map fun x => routerAt x (routerY a)) ++ ys.map fun y => routerAt (routerX b) y

/-- R385: whether a host line goes from one router to another rows first: it does where the route with columns first crosses a dark router;
none where both do. -/
def State.hostRows (s : State) (h a b : Nat) : Option Bool :=
  [false, true].find? fun r => (meshRoute a b r).all fun p => !s.routerDark (66 * h + p)

/-- The router of the link row at which the host gateway hands a line for a router to the mesh: in that router's column, or in the first column
from which a route leads there. -/
def State.hostGate (s : State) (h b : Nat) : Option Nat :=
  ((routerX b :: List.range 11).map fun x => routerAt x (linkRow h)).find? fun a => (s.hostRows h a b).isSome

/-! ### Regions -/

/-- The region of an address that RDMA READ may reach: 1 vault, 2 scratch, 3 side, 4 output banks, 5 poll buffer, 6 input
mailbox; 0 none (R411, R115). -/
def hostRegion (a : Nat) : Nat :=
  match placeOf a with
  | .vault _ _ _ => 1
  | .scratch _ _ => 2
  | .side _ _ _ => 3
  | .reg 4 off =>
    if 0x200000 ≤ off ∧ off < 0x220000 then 4
    else if 0x300000 ≤ off ∧ off < 0x310000 then 5
    else if 0x100000 ≤ off ∧ off < 0x110000 then 6
    else 0
  | _ => 0

/-- R411: whether RDMA READ and MEM_READ may reach a range, and whether RDMA WRITE may. -/
def hostMayRead (a len : Nat) : Bool :=
  let r := hostRegion a
  r ≠ 0 && hostRegion (a + max len 1 - 1) = r
def hostMayWrite (a len : Nat) : Bool :=
  let r := hostRegion a
  (r = 1 || r = 2 || r = 3 || r = 6) && hostRegion (a + max len 1 - 1) = r

/-- R89: an access that the mailbox windows take: 8-byte aligned, 8 to 64 bytes long and within one slot. -/
def windowOk (a len : Nat) : Bool := a % 8 = 0 && len % 8 = 0 && decide (8 ≤ len) && decide (a % 64 + len ≤ 64)

/-- The port of a queue pair's connection. -/
def State.qpPort (s : State) (q : Nat) : Nat := s.fget F.ECP_QPSTAT_PORT q

/-- Log a host access (ETH_ERRADDR). -/
def State.hostErr (s : State) (a status q : Nat) : State := s.errETH (s.qpPort q) a status q

/-- Whether any word of a scratch line is uncorrectable. -/
def State.scratchBad (s : State) (n off : Nat) : Bool :=
  [0, 1].any fun k => (s.decodeWord 3 (scratchAddr n (off / 64 * 64) / 32 + k) []).2 = .uncorr

/-- R220, R228: outside RUNNING the controller opens a row for each line of the host that it serves. -/
def State.hostOpens (s : State) (c : Chan) (off : Nat) : State := if s.running then s else s.openRow c off

/-- Read the line that holds an address: its 64 bytes and the status of the read. -/
def State.hostRead (s : State) (a : Nat) : Line × Nat × State :=
  match placeOf a with
  | .scratch n off =>
    if s.present (.scratch n off) then
      let bad := s.scratchBad n off
      let (d, s) := s.readScratch n (off / 64 * 64 : Nat)
      (d, if bad then ST.UNCORR else 0, s)
    else (List.replicate 64 none, ST.ABSENT, s.errCOR n (scratchAddr n (off / 64 * 64)) ST.ABSENT 3)
  | .reg _ _ => ((s.bytes (a / 64 * 64) 64).map some, 0, s)
  | p =>
    match p.chan with
    | some (c, off) =>
      if s.chPresent c off then
        let (d, r, s) := (s.hostOpens c off).readLine c off
        (d, if r = .uncorr then ST.UNCORR else 0, s)
      else (List.replicate 64 none, ST.ABSENT, s.chErr c off ST.ABSENT 3)
    | none => (List.replicate 64 none, ST.ABSENT, s)

/-- A write of the host to a channel: the merge entries it allocates are its own (R228). -/
def State.writeHost (s : State) (c : Chan) (off : Nat) (d : Line) (en : Nat → Bool) : State :=
  let old := (s.chan c).merge.map (·.word)
  (s.writeLine c off d en).modChan c fun v =>
    { v with merge := v.merge.map fun e => if old.contains e.word then e else { e with byStream := false } }

/-- Write bytes from an address on, within one line: the status of the write. -/
def State.hostWrite (s : State) (a : Nat) (d : List Byte) : Nat × State :=
  let lo := a % 64
  let line : Line := List.replicate lo none ++ d.map some
  let en (i : Nat) : Bool := lo ≤ i && decide (i < lo + d.length)
  match placeOf a with
  | .scratch n off =>
    if s.present (.scratch n off) then (0, s.writeScratch n (off / 64 * 64 : Nat) line en)
    else (ST.ABSENT, s.errCOR n (scratchAddr n off) ST.ABSENT 3)
  | p =>
    match p.chan with
    | some (c, off) =>
      if !s.chPresent c off then (ST.ABSENT, s.chErr c off ST.ABSENT 3)
      else if s.chBand c = 3 then (ST.THERMAL, s.writeHost c off line en)
      else (0, (s.hostOpens c off).writeHost c off line en)
    | none => (ST.ABSENT, s)

/-- A line of a request has come back. -/
def State.lineBack (s : State) (req idx : Nat) (d : Line) (status : Nat) : State :=
  { s with rdreqs := s.rdreqs.map fun r => if r.req = req then { r with got := r.got ++ [(idx, d, status)] } else r }

/-! ### Lines of DMA and CONTROL on the die link (R390, R417, R436) -/

def State.itlOf (s : State) (m : Nat) : Itl := smGet {} s.itl m
def State.setItl (s : State) (m : Nat) (v : Itl) : State := { s with itl := smPut {} s.itl m v }
def State.itlDir (s : State) (m d : Nat) : ItlDir := smGet {} (s.itlOf m).dirs d
def State.setDir (s : State) (m d : Nat) (v : ItlDir) : State :=
  s.setItl m { s.itlOf m with dirs := smPut {} (s.itlOf m).dirs d v }

/-- The SCNT of the present bundle. -/
def State.nowS (s : State) : Nat := s.str.scnt.toNat

/-- The module that carries the lines of a module: its substitute while it is fenced (R400). -/
def State.carrier (s : State) (m : Nat) : Nat := if s.flag F.ITL_STAT_SUBV m then s.fget F.ITL_STAT_SUBST m else m

/-- The kinds of R436 that the model sends. -/
inductive VKind where
  | writeHeader | data | readRequest | readData | status | mailbox
  deriving DecidableEq, Repr

def VKind.code : VKind → Nat
  | .writeHeader => 0x01
  | .data => 0x02
  | .readRequest => 0x03
  | .readData => 0x04
  | .status => 0x05
  | .mailbox => 0x13

def VKind.ofCode (k : Nat) : Option VKind :=
  [VKind.writeHeader, .data, .readRequest, .readData, .status, .mailbox].find? fun x => x.code = k

/-- The virtual channel of a kind (R436): 1 DMA, 2 CONTROL. -/
def VKind.vc : VKind → Nat
  | .mailbox => 2
  | _ => 1

/-- R389, R436: a line descriptor: DUE and TIMED, POIS by granules of 8 bytes, KIND, ROUTE and TAG. -/
def vDesc (k : VKind) (tag route : Nat) (due : Option Nat) (d : List (Option Byte)) : Nat :=
  let pois := ((List.range 8).map fun g => if ((d.drop (8 * g)).take 8).any Option.isNone then 2 ^ g else 0).sum
  (due.getD 0) % 2 ^ 16 + pois * 2 ^ 16 + (if due.isSome then 2 ^ 25 else 0) + k.code * 2 ^ 26 + route % 2 ^ 18 * 2 ^ 32 +
    tag % 2 ^ 14 * 2 ^ 50

def VLine.kind (l : VLine) : Option VKind := VKind.ofCode (bits l.desc 31 26)
def VLine.tag (l : VLine) : Nat := bits l.desc 63 50
def VLine.timed (l : VLine) : Bool := bits l.desc 25 25 = 1
def VLine.vc (l : VLine) : Nat := match l.kind with
  | some k => k.vc
  | none => 1

/-- A number in the content of a line: `n` bytes from an offset on. -/
def VLine.num (l : VLine) (off n : Nat) : Nat := leNat (((l.line.drop off).take n).map fun b => b.getD 0)

/-- SCNT left before the DUE of a timed line; 2^15 or more once it has passed. -/
def State.dueLeft (s : State) (l : VLine) : Nat := (bits l.desc 15 0 + 2 ^ 16 - s.nowS % 2 ^ 16) % 2 ^ 16

/-- R392, R394: a timed line that has not been launched by t_L + 16, 48 before its DUE. -/
def State.vLate (s : State) (l : VLine) : Bool := l.timed && (s.dueLeft l ≤ 48 || decide (2 ^ 15 ≤ s.dueLeft l))

/-- A content padded to a line. -/
def padLine (bs : List Byte) : List (Option Byte) := bs.map some ++ List.replicate (64 - bs.length) (some 0)

/-- Lines wait at the sender of the module, or of its substitute (R400). -/
def State.pushLink (s : State) (m d : Nat) (ls : List VLine) : State :=
  let c := s.carrier m
  let x := s.itlDir c d
  s.setDir c d { x with vq := x.vq ++ ls }

/-- R405: the half whose host gateway a port attaches to. -/
def halfOfPort (p : Nat) : Nat := p / 4

/-- The half that a host line comes from: its port's; for MEM_READ, which H0's system controller serves (R422), H0, or H1 while a reset of
H0 or its Molt moves ECP processing there (R423, R515). -/
def State.lineHalf (s : State) (l : HLine) : Nat :=
  if !l.write && s.rdreqs.any fun r => r.req = l.req && r.op = OP.MEM_READ then (if s.life.molt.any fun m => m.half = 0 then 1 else 0)
  else halfOfPort (s.qpPort l.qp)

/-- The half an address in memory belongs to. -/
def hostHalf (a : Nat) : Nat :=
  match placeOf a with
  | .vault n _ _ => halfOfCore n
  | .scratch n _ => halfOfCore n
  | .side k _ _ => halfOfStack k
  | _ => 0

/-- The router a host line to an address leaves at: its cluster's, or one of the STACK ports of its stack's controller; and the EXIT. -/
def State.hostRouter (s : State) (a : Nat) : Nat × Nat :=
  let cluster (n : Nat) : Nat × Nat := (((s.physOf (clusterOf n)).getD 0) % 66, 0)
  match placeOf a with
  | .vault n _ _ => cluster n
  | .scratch n _ => cluster n
  | .side k _ _ => (16 * (((List.range 4).find? fun j => stackOf (halfOfStack k) j = k).getD 0), 8)
  | _ => (0, 0)

/-- The module by which a host line crosses: the lowest of its destination's column, so that a queue's lines keep their order (R412). -/
def State.hostModule (s : State) (a : Nat) : Nat :=
  ((List.range 16).find? fun m => moduleCol m = routerX (s.hostRouter a).1).getD 0

/-- R371: the ROUTE to the destination router. -/
def State.hostRouteWord (s : State) (a : Nat) : Nat :=
  let (p, e) := s.hostRouter a
  routerX p + routerY p * 2 ^ 4 + e * 2 ^ 7 + s.hostModule a * 2 ^ 13

/-- A host line crosses the die link (R417): a write header and its data line, or a read request, under a TAG of its own. -/
def State.crossLine (s : State) (l : HLine) : State :=
  let d := s.lineHalf l
  let m := s.hostModule l.addr
  let x := s.itlDir m d
  let s := s.setDir m d { x with tag := (x.tag + 1) % 2 ^ 14, asked := x.asked ++ [(x.tag, l, 0)] }
  let mk (k : VKind) (c : List (Option Byte)) : VLine :=
    { desc := vDesc k x.tag (s.hostRouteWord l.addr) none c, line := c, mod := m, len := l.len }
  let head := padLine (leBytes 8 l.addr ++ leBytes 2 1 ++ leBytes 1 l.qp)
  s.pushLink m d (if l.write then
    [mk .writeHeader head, mk .data (padLine (List.replicate (l.addr % 64) 0 ++ l.data))] else [mk .readRequest head])

/-- A host line is done. Of one that crossed the die link its half sends the data of a read back, and the status of a write or of a read that met
an error. -/
def State.hostDone (s : State) (l : HLine) (d : Line) (st : Nat) : State :=
  match l.back with
  | none =>
    let s := if st = 0 then s else s.hostErr l.addr st l.qp
    if l.write then s else s.lineBack l.req l.idx d st
  | some (m, dir, tag) =>
    let mk (k : VKind) (c : Line) : VLine := { desc := vDesc k tag 0 none c, line := c, mod := m }
    s.pushLink m (1 - dir) ((if l.write || st ≠ 0 then [mk .status (padLine (leBytes 2 st ++ leBytes 8 l.addr))] else []) ++
      (if l.write then [] else [mk .readData d]))

/-- A line completes with a status and no data: a write is dropped, a read returns 64 unspecified bytes (R14, R350, R415). -/
def State.failHostLine (s : State) (l : HLine) (status : Nat) : State := s.hostDone l (List.replicate 64 none) status

/-- The controller state of a side channel beyond its `VCh`. -/
def State.sc (s : State) (k c : Nat) : SChan := smGet {} s.sch (32 * k + c)
def State.setSc (s : State) (k c : Nat) (v : SChan) : State := { s with sch := smPut {} s.sch (32 * k + c) v }

/-- R348: whether a lease of a side channel holds the bank group of an offset. -/
def State.leasedNow (s : State) (k c off : Nat) : Bool :=
  match (s.sc k c).lease with
  | some l => l.gmask.testBit (off / 0x800 % 32 / 4)
  | none => false

/-- R350: a host line in a leased bank completes with ST_LEASED. -/
def State.leasedLine (s : State) (l : HLine) : State :=
  match placeOf l.addr with
  | .side k c _ =>
    ((s.errSCB k c (l.addr / 32 * 32) ST.LEASED 2).bump F.SCB_LEASEDCNT_COUNT k 0 1).failHostLine l ST.LEASED
  | _ => s

/-- Whether a host line lies in a leased bank. -/
def State.isLeased (s : State) (l : HLine) : Bool :=
  match placeOf l.addr with
  | .side k c off => s.leasedNow k c off
  | _ => false

/-- Serve one host line. -/
def State.serveHostLine (s : State) (l : HLine) : State :=
  if s.isLeased l then s.leasedLine l else
  let s := match placeOf l.addr with
    | .side k _ _ => s.bump F.SSK_HOSTCNT_COUNT k 0 1
    | .vault n _ _ => s.bump F.WVL_HOSTCNT_COUNT (clusterOf n) 0 1
    | .scratch n _ => s.bump F.WVL_HOSTCNT_COUNT (clusterOf n) 0 1
    | _ => s
  if l.write then
    let (st, s) := s.hostWrite l.addr l.data
    s.hostDone l [] st
  else
    let (d, st, s) := s.hostRead l.addr
    s.hostDone l d st

/-! ### Answers -/

/-- The lines of a request in order. -/
def ReadReq.line (r : ReadReq) (i : Nat) : Line × Nat :=
  match r.got.find? fun g => g.1 = i with
  | some g => g.2
  | none => ([], 0)

/-- Whether every line of a request has come back. -/
def ReadReq.full (r : ReadReq) : Bool := decide (r.lines ≤ r.got.length)

/-- The two words of a line: whether each carries poison. -/
def linePois (d : Line) (k : Nat) : Bool := ((d.drop (32 * k)).take 32).any (·.isNone)

/-- R414: a word with any poison returns 32 unspecified bytes. -/
def blurLine (d : Line) : Line :=
  (List.range 2).flatMap fun k => if linePois d k then List.replicate 32 none else (d.drop (32 * k)).take 32

/-- R425: the completion body and status of a MEM_READ. An absent line reads as poison (R14). -/
def State.memReadBody (s : State) (r : ReadReq) : Nat × List Byte × State :=
  let ls := (List.range r.lines).map r.line
  let bank := hostRegion r.addr = 4
  let bitmap := (List.range (2 * r.lines)).foldl (fun m w =>
    if !bank && linePois (r.line (w / 2)).1 (w % 2) && (r.line (w / 2)).2 ≠ ST.TIMEOUT then m + 2 ^ w else m) 0
  let st := ((ls.map (·.2)).find? (· ≠ 0)).getD 0
  let (data, s) := s.reveal (ls.flatMap (·.1))
  (st, leBytes 4 bitmap ++ leBytes 2 st ++ leBytes 2 0 ++ data, s)

/-- The address of the first word of a request that is poisoned or uncorrectable, and its status. -/
def ReadReq.firstPois (r : ReadReq) : Option (Nat × Nat) :=
  (List.range (2 * r.lines)).findSome? fun w =>
    let (d, st) := r.line (w / 2)
    if linePois d (w % 2) ∧ st ≠ ST.ABSENT ∧ st ≠ ST.TIMEOUT ∧ st ≠ ST.LEASED then some (r.addr / 64 * 64 + 32 * w, st) else none

/-- R414: answer an RDMA READ. -/
def State.answerRead (s : State) (r : ReadReq) : State :=
  let (data, s) := s.reveal ((List.range r.lines).flatMap fun i => blurLine (r.line i).1)
  let body := (data.drop (r.addr % 64)).take r.len
  let s := s.send r.qp { kind := 0x20, tag := r.tag, body := body }
  match r.firstPois with
  | some (a, st) => s.raiseAddr .hostPoison a st r.qp
  | none => s

/-- Answer every request whose lines have all come back. -/
def State.finishReads (s : State) : State :=
  let done := s.rdreqs.filter ReadReq.full
  let s := { s with rdreqs := s.rdreqs.filter fun r => !r.full }
  done.foldl (fun s r =>
    if r.op = OP.MEM_READ then
      match s.cmds.find? fun c => c.op = OP.MEM_READ ∧ c.args = [r.req] with
      | none => s
      | some c =>
        let (st, body, s) := s.memReadBody r
        { (s.completion c st body) with cmds := s.cmds.filter fun d => d ≠ c }
    else s.answerRead r) s

/-! ### Host queues -/

/-- The queue a line waits in: by cluster, or by side channel. -/
def hostQueue (a : Nat) : Nat :=
  match placeOf a with
  | .vault n _ _ => n / 8
  | .scratch n _ => n / 8
  | .side k c _ => 128 + 32 * k + c
  | _ => 0

def State.hqGet (s : State) (q : Nat) : List HLine := smGet [] s.hq q
def State.hqSet (s : State) (q : Nat) (l : List HLine) : State := { s with hq := smPut [] s.hq q l }

/-- R297, R337: whether a host queue has room: 64 lines of a cluster, 256 of a side stack. -/
def State.hqRoom (s : State) (q : Nat) : Bool :=
  if q < 128 then decide ((s.hqGet q).length < 64)
  else
    let k := (q - 128) / 32
    decide ((((List.range 32).map fun c => (s.hqGet (128 + 32 * k + c)).length).sum) < 256)

/-- The half of a host queue. -/
def hostQueueHalf (q : Nat) : Nat := if q < 128 then q / 64 else halfOfStack ((q - 128) / 32)

/-- Whether host lines wait for windows and reserved slots (R297, R298, R337): a cluster's while the stream is RUNNING or
STALLED; a side channel's while bundles execute; those of a half whose clocks have stopped for good (R46). -/
def State.hostWaits (s : State) (q : Nat) : Bool :=
  !s.clocked (hostQueueHalf q) || s.running && (q < 128 || s.stall.frz.isNone ||
    (s.stall.reqs.any fun r => (r.src = 1 || r.src = 2) && r.unit = 4096 + (q - 128) && r.released = none))

/-- R310, R337: outside the reserved slots too, a host line to a side channel is served only while its bank is closed. -/
def State.bankOpen (s : State) (l : HLine) : Bool :=
  match placeOf l.addr with
  | .side k c off =>
    let ch := Chan.side k c
    !s.isLeased l && s.chPresent ch off && (smGet {} (s.chan ch).banks (ch.bankOf off) : Bank).row.isSome
  | _ => false

/-- Whether a host line has to wait. -/
def State.hostHolds (s : State) (l : HLine) : Bool := s.hostWaits (hostQueue l.addr) || s.bankOpen l

/-- Serve a queue's lines in order; those that meet an open bank stay. -/
def State.drainQueue (s : State) (q : Nat) : State :=
  let ls := s.hqGet q
  (ls.filter fun l => !s.bankOpen l).foldl State.serveHostLine (s.hqSet q (ls.filter s.bankOpen))

/-- Serve the queues whose lines need not wait. -/
def State.drainQueues (s : State) : State := ((s.hq.map (·.1)).filter fun q => !s.hostWaits q).foldl State.drainQueue s

/-- R407: a priority whose held lines reach XOFF KiB is paused, and released when they have fallen to XON KiB. -/
def State.pfcUpdate (s : State) (p : Nat) : State :=
  (List.range 8).foldl (fun s pri =>
    let held := 64 * ((s.port p).rx.filter fun x => x.1 = pri).length
    let on := (s.fget F.ETH_STAT_PFCTX p).testBit pri
    let tx := s.fget F.ETH_STAT_PFCTX p
    if !on ∧ 0 < held ∧ 1024 * s.fget F.ETH_PFCCFG_XOFF p ≤ held then
      (s.fset F.ETH_STAT_PFCTX p 0 (tx + 2 ^ pri)).bump F.ETH_PAUSECNT_TX p 0 1
    else if on ∧ held ≤ 1024 * s.fget F.ETH_PFCCFG_XON p then
      (s.fset F.ETH_STAT_PFCTX p 0 (tx - 2 ^ pri)).bump F.ETH_PAUSECNT_TX p 0 1
    else s) s

/-- R368, R369: where a host line leaves the mesh: half, routers in order of choice, and port: HQ of its cluster's router, or the STACK port of
a queue of its stack's controller. -/
def State.hostExits (s : State) (a : Nat) : Nat × List Nat × Nat :=
  let cluster (n : Nat) : Nat × List Nat × Nat := match s.physOf (clusterOf n) with
    | some pi => (pi / 66, [pi % 66], 15)
    | none => (0, [], 15)
  match placeOf a with
  | .vault n _ _ => cluster n
  | .scratch n _ => cluster n
  | .side k _ _ =>
    let h := halfOfStack k
    (h, ((List.range 4).filter fun j => stackOf h j = k).flatMap fun j => (List.range 8).map fun q => 16 * j + 2 * q, 12)
  | _ => (0, [], 15)

/-- R385: a host line at the port by which it enters the mesh, if a route leads to its exit: from the host gateway by LINK0 of a router of
the link row, from the die link by its module's port. -/
def State.meshEntry (s : State) (l : HLine) : Option MeshLine :=
  let (h, bs, e) := s.hostExits l.addr
  bs.findSome? fun b =>
    let gate : Option (Nat × Nat) := match l.back with
      | some (m, _, _) => some (moduleRouter h m, modulePort m)
      | none => (s.hostGate h b).map fun a => (a, 13)
    gate.bind fun g => (s.hostRows h g.1 b).map fun r =>
      { half := h, pos := g.1, inPort := g.2, dest := b, exit := e, rows := r, line := l }

/-- R385: whether a route leads a host line to its cluster or to its stack's controller. -/
def State.hostRoute (s : State) (l : HLine) : Bool := (s.meshEntry l).isSome

/-- The host lines at one input of a router. -/
def State.meshAt (s : State) (h p i : Nat) : List MeshLine := s.mesh.filter fun m => m.half = h ∧ m.pos = p ∧ m.inPort = i

/-- Whether a host line finds room where it enters the mesh (R385). While the stream is RUNNING or STALLED it takes a place of its input,
which holds 4; in every other state nothing keeps it from its cluster or stack, where it is served or has room in the queue. -/
def State.meshRoom (s : State) (l : HLine) : Bool :=
  match s.meshEntry l with
  | none => true
  | some m =>
    if s.running then decide ((s.meshAt m.half m.pos m.inPort).length < 4) else !s.hostHolds l || s.hqRoom (hostQueue l.addr)

/-- A host line leaves the mesh: it is served, or joins its queue. -/
def State.meshOut (s : State) (l : HLine) : State :=
  let q := hostQueue l.addr
  let s := s.bump F.NOC_HOSTCNT_COUNT (hostHalf l.addr) 0 1
  if !s.hostHolds l then s.serveHostLine l else s.hqSet q (s.hqGet q ++ [l])

/-- A host line enters the mesh; one that no route leads to its place completes with ST_ABSENT. -/
def State.meshLine (s : State) (l : HLine) : State :=
  match s.meshEntry l with
  | none => s.failHostLine l ST.ABSENT
  | some m => if s.running then { s with mesh := s.mesh ++ [m] } else s.meshOut l

/-! ### Host lines in the mesh (R385) -/

/-- The output of its router that a host line waits for. -/
def MeshLine.out (m : MeshLine) : Nat := (meshOutputs m.pos m.dest m.rows).headD m.exit

/-- The number of an output among those of all routers. -/
def meshKey (h p o : Nat) : Nat := 16 * (66 * h + p) + o
def MeshLine.key (m : MeshLine) : Nat := meshKey m.half m.pos m.out

/-- The lines at the heads of their inputs. -/
def meshHeads : List (Nat × Nat × Nat) → List MeshLine → List MeshLine
  | _, [] => []
  | seen, m :: ms =>
    let k := (m.half, m.pos, m.inPort)
    if seen.contains k then meshHeads seen ms else m :: meshHeads (k :: seen) ms

/-- Whether a line has a credit of the place ahead of it: the next router's input, or its host queue. -/
def State.meshCredit (s : State) (m : MeshLine) : Bool :=
  if m.pos = m.dest then !s.hostHolds m.line || s.hqRoom (hostQueue m.line.addr)
  else
    let n := meshNext m.pos m.out
    decide ((s.meshAt m.half n.1 n.2).length < 4)

/-- Of the lines that wait for one output, the one it serves: its inputs in rotation, from the one after that it served last. -/
def State.meshTakes (s : State) (ms : List MeshLine) (key : Nat) : Option MeshLine :=
  let last := smGet 15 s.meshTurn key
  (List.range 16).findSome? fun i => ms.find? fun m => m.key = key ∧ m.inPort = (last + 1 + i) % 16

/-- A line moves by its output. -/
def State.meshMove (s : State) (m : MeshLine) : State :=
  let s := { s with mesh := s.mesh.erase m, meshTurn := smPut 15 s.meshTurn m.key m.inPort }
  if m.pos = m.dest then s.meshOut m.line
  else
    let n := meshNext m.pos m.out
    { s with mesh := s.mesh ++ [{ m with pos := n.1, inPort := n.2 }] }

/-- Host lines whose router, or the next of their path, has gone dark complete with ST_ABSENT. -/
def State.meshDark (s : State) : State :=
  (s.mesh.filter fun m => s.routerDark (66 * m.half + m.pos) ||
      decide (m.pos ≠ m.dest) && s.routerDark (66 * m.half + (meshNext m.pos m.out).1)).foldl (fun s m =>
    { s with mesh := s.mesh.erase m }.failHostLine m.line ST.ABSENT) s

/-- One slot: every output that no scheduled line uses and for which a line waits with a credit forwards one. -/
def State.meshSlot (s : State) (used : List Nat) : State :=
  let s := s.meshDark
  let heads := meshHeads [] s.mesh
  let picks := (heads.map (·.key)).eraseDups.filterMap fun k => if used.contains k then none else s.meshTakes heads k
  (picks.filter s.meshCredit).foldl State.meshMove s

/-- R417: whether a host line crosses the die link to its memory. -/
def State.crosses (s : State) (l : HLine) : Bool := decide (hostRegion l.addr ≤ 3) && s.lineHalf l ≠ hostHalf l.addr

/-! ### Reception (R436) -/

/-- The line that a DMA line hands to the mesh: a write's data after its header, or a read request. -/
def State.meshOf (s : State) (d : Nat) (l : VLine) : Option HLine :=
  match l.kind with
  | some .readRequest => some { write := false, addr := l.num 0 8, len := l.len, qp := l.num 10 1, since := s.cc, back := some (l.mod, d, l.tag) }
  | some .data =>
    match (s.itlDir l.mod d).opened.find? fun o => o.1 = l.tag with
    | none => none
    | some (_, a, q) => some { write := true, addr := a, len := l.len, data := ((l.line.drop (a % 64)).take l.len).map fun b => b.getD 0, qp := q,
                               since := s.cc, back := some (l.mod, d, l.tag) }
  | _ => none

/-- The answer to a line that this half sent across: the line is done there. -/
def State.answered (s : State) (d : Nat) (l : VLine) : State :=
  let x := s.itlDir l.mod (1 - d)
  match x.asked.find? fun a => a.1 = l.tag with
  | none => s
  | some (_, h, st) =>
    if l.kind = some .status ∧ !h.write then
      s.setDir l.mod (1 - d) { x with asked := x.asked.map fun a => if a.1 = l.tag then (a.1, a.2.1, l.num 0 2) else a }
    else
      (s.setDir l.mod (1 - d) { x with asked := x.asked.filter fun a => a.1 ≠ l.tag }).hostDone h l.line
        (if h.write then l.num 0 2 else st)

/-- A line of DMA or CONTROL is taken (R395, R436): a mailbox forward whose DUE bundle has executed is discarded. -/
def State.takeV (s : State) (d : Nat) (l : VLine) : State :=
  match l.kind with
  | some .writeHeader =>
    let x := s.itlDir l.mod d
    s.setDir l.mod d { x with opened := x.opened ++ [(l.tag, l.num 0 8, l.num 10 1)] }
  | some .mailbox =>
    if s.running && decide (2 ^ 15 ≤ s.dueLeft l) then (s.bump F.ITL_LATECNT_COUNT 0 0 1).raise .itlLate l.mod 0 0 (bits l.desc 15 0) (1 - d) else s
  | some .readData => s.answered d l
  | some .status => s.answered d l
  | _ =>
    match s.meshOf d l with
    | none => s
    | some h =>
      let x := s.itlDir l.mod d
      (s.setDir l.mod d { x with opened := x.opened.filter fun o => o.1 ≠ l.tag }).meshLine h

/-- Take a flit's lines while the mesh has room for them; what is left. -/
def State.takeVs (d : Nat) : List VLine → State → List VLine × State
  | [], s => ([], s)
  | l :: ls, s =>
    if (s.meshOf d l).all s.meshRoom then State.takeVs d ls (s.takeV d l) else (l :: ls, s)

/-- The receiver empties its DMA buffers into the mesh as far as it can. -/
def State.drainBuf (s : State) (m d : Nat) : State :=
  (s.itlDir m d).buf.foldl (fun s f =>
    match (s.itlDir m d).buf with
    | g :: rest =>
      if g ≠ f then s
      else
        let (left, s) := State.takeVs d f.2 s
        s.setDir m d { s.itlDir m d with buf := if left.isEmpty then rest else (g.1, left) :: rest }
    | [] => s) s

/-- Host queues with room take what the receivers of the die link and the ports hold, in order of arrival. -/
def State.pullPorts (s : State) : State :=
  let s := (s.itl.flatMap fun x => (x.2.dirs.filter fun y => !y.2.buf.isEmpty).map fun y => (x.1, y.1)).foldl (fun s p => s.drainBuf p.1 p.2) s
  let held := (s.ports.filter fun p => s.clocked (halfOfPort p.1)).flatMap fun p => p.2.rx.map fun x => (p.1, x)
  let s := held.foldl (fun s x =>
    let l := x.2.2
    let port := s.port x.1
    let s' := s.setPort x.1 { port with rx := port.rx.erase x.2 }
    if s.crosses l then s'.crossLine l else if s.meshRoom l then s'.meshLine l else s) s
  (held.map (·.1)).eraseDups.foldl State.pfcUpdate s

/-- R412: a host line arrives (where the clocks of its port's half have stopped, the port keeps it): it crosses the die link, is served, queued,
or kept in the port's receive buffer while its queue is full or earlier lines for the queue are kept there. -/
def State.hostLine (s : State) (l : HLine) : State :=
  let q := hostQueue l.addr
  let p := s.qpPort l.qp
  if 4 ≤ hostRegion l.addr then s.serveHostLine l
  else if !s.clocked (halfOfPort p) then s.setPort p { s.port p with rx := (s.port p).rx ++ [(s.fget F.ETH_CTL_RPRI p, l)] }
  else if s.crosses l then s.crossLine l
  else if s.meshRoom l ∧ (!s.running ∧ !s.hostHolds l ∨ !(s.ports.any fun x => x.2.rx.any fun y => hostQueue y.2.addr = q)) then s.meshLine l
  else (s.setPort p { s.port p with rx := (s.port p).rx ++ [(s.fget F.ETH_CTL_RPRI p, l)] }).pfcUpdate p

/-- Serve every queue whose lines need not wait, and then take what the ports hold (R297, R298, R337). -/
def State.drainHost (s : State) : State :=
  let s := s.drainQueues
  let s := if s.running then s else s.mesh.foldl (fun s m => s.meshOut m.line) { s with mesh := [] }
  s.pullPorts.serveAll.finishReads

/-- The two slots of a cycle, with the outputs that scheduled lines use in each (R385); what the lines leave free, the ports and the die link
fill. -/
def State.meshCycle (s : State) (used : Nat → List Nat) : State :=
  if s.mesh.isEmpty then s else ((s.meshSlot (used 0)).meshSlot (used 1)).pullPorts.finishReads

/-- A cycle of a freeze, or of a start, passes: host lines keep moving and may use every slot (R386), and those of side channels
without frozen service are served (R337). -/
def State.hostTick (s : State) : State :=
  if !s.running ∨ s.hq.isEmpty ∧ s.mesh.isEmpty then s else ((s.drainQueues).pullPorts.meshCycle fun _ => []).finishReads

/-- The pieces of a range, each within one line: address and length. -/
def linePieces (a len : Nat) : List (Nat × Nat) :=
  let n := (a % 64 + len + 63) / 64
  (List.range n).map fun i =>
    let lo := max a (a / 64 * 64 + 64 * i)
    let hi := min (a + len) (a / 64 * 64 + 64 * (i + 1))
    (lo, hi - lo)

/-- Start a read of a range: a request and its lines. -/
def State.startRead (s : State) (op q session tag a len : Nat) : Nat × State :=
  let ps := linePieces a len
  let req := s.nextReq
  let r : ReadReq := { req := req, op := op, qp := q, session := session, tag := tag, addr := a, len := len, lines := ps.length }
  let s := { s with nextReq := req + 1, rdreqs := s.rdreqs ++ [r] }
  (req, (ps.zipIdx.foldl (fun s p =>
    s.hostLine { write := false, addr := p.1.1, len := p.1.2, qp := q, req := req, idx := p.2, since := s.cc }) s).serveAll)

/-- Write a range: its lines in order. -/
def State.startWrite (s : State) (q a : Nat) (d : List Byte) : State :=
  ((linePieces a d.length).foldl (fun s p =>
    s.hostLine { write := true, addr := p.1, len := p.2, data := (d.drop (p.1 - a)).take p.2, qp := q, since := s.cc }) s).serveAll

/-- R415: the lines of a queue that have waited longer than ETH_HOSTTMO. -/
def State.lateLines (s : State) : List HLine :=
  (s.hq.flatMap (·.2)).filter fun l => decide (l.since + 960 * s.fget F.ETH_HOSTTMO_TMO < s.cc)

/-- R415: discard a line that has waited too long. -/
def State.timeoutLine (s : State) (l : HLine) : State :=
  let q := hostQueue l.addr
  let s := s.hqSet q ((s.hqGet q).filter (· ≠ l))
  (s.failHostLine l ST.TIMEOUT).raiseAddr .hostTimeout l.addr ST.TIMEOUT l.qp

/-- R297: a line slot of a HOST_WINDOW: the oldest queued line of the cluster that lies in the region is served. The first
result says whether there was one. -/
def State.windowSlot (s : State) (k base len : Nat) : Bool × State :=
  match (s.hqGet k).find? fun l => base ≤ l.addr ∧ l.addr < base + 64 * len with
  | none => (false, s)
  | some l => (true, ((s.hqSet k ((s.hqGet k).filter (· ≠ l))).serveHostLine l).pullPorts.finishReads)

end Sys2Proof.Machine
end

