-- ==== Sys2Proof/Machine/Side.lean ====
section
/-!
DEFINITION. A side stack's controller: line slots (R308 to R311), entry lists and address generators (R313 to R319), the
side cache (R335, R336) and the memory-side adders (R329 to R334).
-/
namespace Sys2Proof.Machine

/-! ### Time -/

/-- R308: the first line slot of an SCNT. -/
def firstSlot (t : Nat) : Nat := 25 * (t / 12) + (25 * (t % 12) + 11) / 12

/-! ### State -/

def State.stkOf (s : State) (k : Nat) : Stk := smGet {} s.stk k
def State.setStk (s : State) (k : Nat) (v : Stk) : State := { s with stk := smPut {} s.stk k v }

/-- Whether a feature is in force (R4): 0 Scarab, 1 attention engine, 2 Cicada. -/
def State.licensed (s : State) (f : Nat) : Bool := (s.fget F.LIC_STAT_INFORCE).testBit f

/-- Keys of the side cache and of the command memories in the byte map: they lie above every device address. -/
def cacheKey (k line : Nat) : Nat := 2 ^ 48 + k * 2 ^ 40 + 64 * line
def cmdKey (k off : Nat) : Nat := 2 ^ 49 + k * 2 ^ 40 + off

/-- R313: device address of an offset in a stack's command segment. -/
def cmdSegAddr (k off : Nat) : Nat := sideAddr k 31 ((if isScarab k then 0x5F000000 else 0x7F000000) + off)

/-- A number in the command memory of a stack (R314). -/
def State.cmdNat (s : State) (k off len : Nat) : Nat := s.nat (cmdKey k off) len

/-- The bytes of the command segments, as they stand in the memory, put into the command memory. -/
def State.copyCells (s : State) : State :=
  let keep := s.mem.filter fun p => p.1 < 2 ^ 48
  let cells := (List.range 8).flatMap fun k =>
    (keep.filter fun p => cmdSegAddr k 0 ≤ p.1 ∧ p.1 < cmdSegAddr k 0x100000).map fun p => (cmdKey k (p.1 - cmdSegAddr k 0), p.2)
  let lost := (List.range 8).flatMap fun k =>
    let b := cmdSegAddr k 0
    (s.undef.filter fun u => u.1 < b + 0x100000 ∧ b < u.2.1).map fun u =>
      (cmdKey k (max u.1 b - b), cmdKey k (min u.2.1 (b + 0x100000) - b), u.2.2)
  { s with mem := smPuts 0 keep cells, syn := s.syn.filter fun p => p.1 < 2 ^ 43,
           undef := (s.undef.filter fun u => u.1 < 2 ^ 48) ++ lost }

/-- The words of a command segment that hold an error are copied as the channel reads them: corrected, or with unspecified bits (R159). -/
def State.copyDecoded (s : State) (k : Nat) : State :=
  let c := Chan.side k 31
  let s := if s.chPresent c (cmdSegAddr k 0 - c.base) then s.scanWords c (cmdSegAddr k 0 - c.base) 0x100000 else s
  let ws := s.syn.filter fun p => cmdSegAddr k 0 ≤ 32 * p.1 ∧ 32 * p.1 < cmdSegAddr k 0x100000
  ws.foldl (fun s p =>
    let r := s.reveal (s.decodeWord 4 p.1 (s.erasures c)).1
    r.2.putBytes (cmdKey k (32 * p.1 - cmdSegAddr k 0)) r.1) s

/-- R314: STREAM_START copies each command segment into the command memory. -/
def State.copyCommands (s : State) : State := (List.range 8).foldl State.copyDecoded s.copyCells

/-! ### Entries (R315 to R318) -/

def eNslot (e : Nat) : Nat := bits e 63 52 + 1
def eOp (e : Nat) : Nat := bits e 51 48
def eSag (e : Nat) : Nat := bits e 47 44
def eOpnd (e : Nat) : Nat := bits e 43 0

/-- The entry a cursor stands at. -/
def State.entryAt (s : State) (k : Nat) (c : SCur) : Option Nat :=
  if c.live ∧ c.rest ≠ 0 then some (s.cmdNat k c.pos 8) else none

/-- A cursor after one slot of an entry. -/
def SCur.step (c : SCur) (e : Nat) : SCur :=
  if c.used + 1 < eNslot e then { c with used := c.used + 1 } else { c with pos := c.pos + 8, rest := c.rest - 1, used := 0 }

/-- R315: the list of a channel or cache lane in a block: `o` is its place in the block record. -/
def State.blockList (s : State) (k blk o : Nat) : SCur :=
  let e := s.cmdNat k (0x1000 + 8 * blk) 8
  if bits e 20 20 = 0 then {}
  else
    let p := s.cmdNat k (bits e 19 0 + o) 8
    { pos := bits p 19 0, rest := bits p 39 20, live := true }

/-- A side address generator record (R318): `o` is its place in the command memory. -/
structure Sag where
  base : Nat
  stride : Int
  count : Nat
  dir : Nat
  pol : Nat
  ind : Bool
  port : Nat
  rid : Nat
  aop : Nat
  fmt : Nat
  mask : Nat
  ok : Bool
  deriving DecidableEq, Repr

def State.sag (s : State) (k o : Nat) : Sag :=
  let b (i : Nat) := s.cmdNat k (o + i) 1
  let n := s.cmdNat k (o + 8) 4
  { base := s.cmdNat k o 4, stride := sext 32 (s.cmdNat k (o + 4) 4), count := if n = 0 then 1 else n,
    dir := b 12 % 4, pol := b 12 / 4 % 4, ind := decide (b 12 / 16 % 2 = 1), port := b 13 % 8, rid := b 14 % 16,
    aop := b 15 % 4, fmt := b 15 / 4 % 4, mask := s.cmdNat k (o + 16) 4,
    ok := decide (b 12 / 32 = 0) && decide (b 12 / 4 % 4 ≠ 3) && decide (b 13 / 8 = 0) && decide (b 14 / 16 = 0) && decide (b 15 / 16 = 0) &&
      decide (b 15 % 4 ≠ 3) && decide (s.cmdNat k (o + 20) 44 = 0) }

def chanSagAt (c g : Nat) : Nat := 0x9000 + 1024 * c + 64 * g
def laneSagAt (l g : Nat) : Nat := 0x11000 + 1024 * l + 64 * g

/-- The address of the access `d` accesses later than count `i` says. -/
def Sag.at (g : Sag) (i : Nat) : Int := (g.base : Int) + g.stride * ((i % g.count : Nat) : Int)

/-! ### Network queues (R319) -/

def State.ingress (s : State) (k q : Nat) : List MLine := smGet [] (s.stkOf k).ing q
def State.egress (s : State) (k q : Nat) : List MLine := smGet [] (s.stkOf k).egr q

/-- Log a schedule error of a side channel: SSK_ERRADDR and EV_SCHED. -/
def State.sskErr (s : State) (k c addr status cause : Nat) : State := (s.errSSK k c addr status cause).sched k 12 cause

/-- Take the head of an ingress queue; an empty queue gives poison and EV_SCHED with cause QUEUE. -/
def State.takeIngress (s : State) (k c q : Nat) : MLine × State :=
  match s.ingress k q with
  | [] => ({ data := List.replicate 64 none }, s.sskErr k c 0 0 8)
  | l :: r => (l, s.setStk k { s.stkOf k with ing := smPut [] (s.stkOf k).ing q r })

/-- A line reaches an egress queue; one that finds it full is dropped. -/
def State.putEgress (s : State) (k c q : Nat) (l : MLine) : State :=
  if 64 ≤ (s.egress k q).length then s.sskErr k c 0 0 8
  else s.setStk k { s.stkOf k with egr := smPut [] (s.stkOf k).egr q (s.egress k q ++ [l]) }

/-- A line reaches an ingress queue from the network; one that finds it full is dropped. -/
def State.putIngress (s : State) (k q : Nat) (l : MLine) : State :=
  if 64 ≤ (s.ingress k q).length then s.sskErr k 0 0 0 8
  else s.setStk k { s.stkOf k with ing := smPut [] (s.stkOf k).ing q (s.ingress k q ++ [l]) }

/-! ### Adders (R329 to R334) -/

/-- Bytes of a lane by format code 0 FP32, 1 BF16, 2 INT32, 3 INT64. -/
def laneBytes (f : Nat) : Nat := if f = 1 then 2 else if f = 3 then 8 else 4

/-- The identity of an operation (R329). -/
def laneIdentity (aop f : Nat) : Nat :=
  match aop, f with
  | 0, _ => 0
  | 1, 0 => 0x7F800000 | 1, 1 => 0x7F80 | 1, 2 => 2 ^ 31 - 1 | 1, _ => 2 ^ 63 - 1
  | _, 0 => 0xFF800000 | _, 1 => 0xFF80 | _, 2 => 2 ^ 31 | _, _ => 2 ^ 63

/-- Combine two lanes (R329). -/
def laneOp (aop f x y : Nat) : Nat :=
  match f with
  | 0 => fop2 .fp32 (if aop = 0 then FV.add else if aop = 1 then fun a b => (FV.max a.neg b.neg).neg else FV.max) (fun a _ => a) x y
  | 1 => fop2 .bf16 (if aop = 0 then FV.add else if aop = 1 then fun a b => (FV.max a.neg b.neg).neg else FV.max) (fun a _ => a) x y
  | _ =>
    let w := if f = 2 then 32 else 64
    let a := sext w x
    let b := sext w y
    unsext w (if aop = 0 then a + b else if aop = 1 then min a b else max a b)

/-- A line of identities. -/
def identLine (aop f : Nat) : Line :=
  (List.range (64 / laneBytes f)).flatMap fun _ => (leBytes (laneBytes f) (laneIdentity aop f)).map some

/-- Combine two lines lane by lane; poison in either poisons the lane (R334), and so does a mismatch. -/
def combineLines (aop f : Nat) (x y : Line) (hits : List Nat) : Line :=
  let b := laneBytes f
  (List.range (64 / b)).flatMap fun i =>
    match lineNat ((x.drop (b * i)).take b), lineNat ((y.drop (b * i)).take b) with
    | some u, some v => if hits.contains i then List.replicate b none else (leBytes b (laneOp aop f u v)).map some
    | _, _ => List.replicate b none

/-- R334: the mismatches of a channel's adder: counted and raised. -/
def State.adderHits (s : State) (k c : Nat) (hs : List SideHit) : List Nat × State :=
  let mine := hs.filter fun h => h.stk = k ∧ h.ch = c ∧ h.unit = 16
  (mine.map (·.lane), mine.foldl (fun s h =>
    ((s.bump F.SSK_RESCNT_COUNT k 0 1).total 2).raise .residue (0x8000 + 32 * k + c) 0xFF h.check s.scnt32 (halfOfStack k)) s)

def State.red (s : State) (k c r : Nat) : Option Red := ((s.sc k c).reds.find? fun p => p.1 = r).map (·.2)
def State.setRed (s : State) (k c r : Nat) (v : Option Red) : State :=
  let x := s.sc k c
  let rest := x.reds.filter fun p => p.1 ≠ r
  s.setSc k c { x with reds := match v with
    | some v => smIns rest r v
    | none => rest }

/-- R332: one contribution at slot `n`; `fmt` is checked where a bus contribution names one (R359). -/
def State.contribute (s : State) (k c r line n : Nat) (l : MLine) (bus : Option Nat) (hits : List Nat) : State :=
  let late (s : State) : State := s.sskErr k c 0 ST.REDLATE 10
  match s.red k c r with
  | none => late s
  | some v =>
    let wrong : Bool := match bus with
      | some f => v.aop ≠ 0 || v.fmt ≠ f
      | none => false
    if v.lines.length ≤ line ∨ v.deadline ≤ n ∨ wrong then late s
    else
      let old := (v.lines[line]?).getD []
      let new := combineLines v.aop v.fmt old (if l.null then identLine v.aop v.fmt else l.data) hits
      s.setRed k c r (some { v with lines := v.lines.set line new, cnts := v.cnts.set line ((v.cnts[line]?).getD 0 + 1) })

/-- R333: a reduction's deadline. -/
def State.judge (s : State) (k c r : Nat) (v : Red) : State :=
  let bad := (List.range v.lines.length).filter fun i => (v.cnts[i]?).getD 0 ≠ v.exp
  let lines := v.lines.zipIdx.map fun p => if bad.contains p.2 then List.replicate 64 none else p.1
  let s := s.setRed k c r (some { v with judged := true, lines := lines })
  if bad.isEmpty then s
  else (s.bump F.SSK_REDCNT_INCOMPL k 0 1).errSSK k c 0 ST.REDINC 11

/-- The reductions of a channel whose deadline is at or before slot `n`. -/
def State.deadlines (s : State) (k c n : Nat) : State :=
  (s.sc k c).reds.foldl (fun s p => if !p.2.judged ∧ p.2.deadline ≤ n then s.judge k c p.1 p.2 else s) s

/-! ### Leases as the controller sees them (R348 to R350) -/

/-- R347: why a LEASE is refused: status, cause, and whether EV_SCB_REFUSE is raised. -/
def State.leaseRefusal (s : State) (k c n e : Nat) : Option (Nat × Nat × Bool) :=
  let o := eOpnd e
  let lenf := bits o 16 8
  if !s.licensed 0 then some (ST.LICENCE, 3, true)
  else if !s.flag F.SCB_CTL_EN k ∨ (s.fget F.SCB_FAIL_FAILED k).testBit c then some (ST.DISABLED, 4, true)
  else if s.chState (.side k c) ≠ CH.ONLINE then some (ST.ABSENT, 5, true)
  else if eNslot e ≠ 1 ∨ n % 25 ≠ 0 ∨ bits o 7 0 = 0 ∨ lenf = 0 ∨ 256 < lenf ∨ bits o 19 17 ≠ 0 ∨ bits o 39 34 ≠ 0 then
    some (ST.DESC, 6, false)
  else match (s.sc k c).lease with
    | some l => if n < l.start + 25 * l.lenf then some (ST.LEASED, 7, false) else none
    | none => none

/-- The groups held by a lease that has a slot in n − 56 to n + 56, given the leases of the list ahead. -/
def State.leaseNear (s : State) (k c n g : Nat) (ahead : List (Nat × Nat)) : Bool :=
  let x := s.sc k c
  (match x.lease with
   | some l => l.gmask.testBit g
   | none => false) ||
  (x.pastLease.any fun p => p.1.testBit g && decide (n < p.2 + 56)) ||
  ahead.any fun p => p.2.testBit g && decide (p.1 ≤ n + 56)

/-! ### Bank rules (R311) -/

/-- R311 in line slots. -/
def sideRules : BankRules := { close := 111, refresh := 56, scrub := 111, spacing := 7, window := 40, turn := 15 }

/-- An access to a bank at slot `n`: the controller and the channel after it, or nothing where it breaks R311. -/
def SChan.access (x : SChan) (v : VCh) (n bk row : Nat) (write close : Bool) : Option (SChan × VCh × Bool) :=
  let g := bk / 4
  let grp := x.groups.any fun p => p.1 = g && decide (p.2 < n) && decide (n ≤ p.2 + 3)
  let opening := (smGet {} v.banks bk : Bank).row.isNone
  let ref := opening && within n 56 x.lastRef
  let turn := write && within n 3 x.lastRead
  if grp || ref || turn then none
  else match v.access sideRules [] n bk row write close with
    | none => none
    | some (v, o) =>
      some ({ x with groups := (g, n) :: x.groups.filter (fun p => n < p.2 + 8), lastRead := if write then x.lastRead else some n }, v, o)

/-- R311: a service slot counts as an opening access that closes its bank; it is no read and no write for the Turnaround rule. -/
def SChan.service (x : SChan) (v : VCh) (n bk : Nat) : Option (SChan × VCh) :=
  if (smGet {} v.banks bk : Bank).row.isSome then none
  else match x.access { v with writes := [] } n bk 0 false true with
  | some (x', v', _) => some ({ x' with lastRead := x.lastRead }, { v' with writes := v.writes })
  | none => none

/-! ### Looking ahead in a list -/

/-- What a scheduled slot of the list ahead does to banks. -/
inductive Ahead where
  | acc (bank row : Nat) (write close : Bool)
  /-- an indirect access: its bank mask -/
  | ind (mask : Nat) (write : Bool)
  | svc (bank : Nat)
  | refwin
  | bcast
  | lease (entry : Nat)
  | idle
  deriving DecidableEq, Repr

/-- Whether an access leaves its row closed (R195): `i` counts the generator's accesses. -/
def Sag.closes (g : Sag) (c : Chan) (i : Nat) : Bool :=
  g.ind || g.pol = 1 || (g.pol = 2 && (c.bankOf (g.at i).toNat ≠ c.bankOf (g.at (i + 1)).toNat || c.rowOf (g.at i).toNat ≠ c.rowOf (g.at (i + 1)).toNat))

/-- The SCNT of a line slot (R308). -/
def slotScnt (n : Nat) : Nat := 12 * (n / 25) + 12 * (n % 25) / 25

/-- The channel offset that a REDCLOSE to the channel writes where its generator is direct: BASE is then a line index, and the spec names no
offset. -/
def redOff (k c sel i : Nat) : Nat := Config.freeOf 5 [k, c, sel, i] % 0x80000000 / 64 * 64

/-- Where a run over the lists to come stands: the cursor, the generators' counts, the service slots made; the block, the SCNT after it, and the
loop counts. -/
structure AheadAt where
  cur : SCur
  agk : List (Nat × Nat)
  svc : Nat
  blk : Nat
  ends : Nat
  loops : List (Nat × Nat)

/-- What the scheduled slots n to `last` do, in this block's list and those that follow it; an atomic access also writes back 48 slots later. -/
def State.aheadGo (s : State) (k c last : Nat) : Nat → Nat → AheadAt → List (Nat × Ahead)
  | 0, _, _ => []
  | fuel + 1, n, p =>
    if last < n then []
    else if p.ends ≤ slotScnt n then
      match s.nextBlk p.blk p.loops with
      | none => []
      | some (b, loops) =>
        s.aheadGo k c last fuel n { p with cur := s.blockList k b (8 * c), blk := b, ends := p.ends + (s.ctlBlk b).len, loops := loops }
    else if n % 16 = 15 then s.aheadGo k c last fuel (n + 1) p
    else match s.entryAt k p.cur with
      | none => s.aheadGo k c last fuel (n + 1) p
      | some e =>
        let (cur, agk, svc) := (p.cur, p.agk, p.svc)
        let sel := eSag e
        let g := s.sag k (chanSagAt c sel)
        let i := smGet 0 agk sel
        let agk' := smPut 0 agk sel ((i + 1) % g.count)
        let ch := Chan.side k c
        let rest (a : Ahead) (agk : List (Nat × Nat)) (svc : Nat) : List (Nat × Ahead) :=
          (n, a) :: s.aheadGo k c last fuel (n + 1) { p with cur := cur.step e, agk := agk, svc := svc }
        let mask := if g.mask = 0 then 2 ^ 32 - 1 else g.mask
        match eOp e with
        | 1 =>
          if g.dir = 2 ∨ !g.ok then rest .idle agk' svc
          else if g.ind then (if g.dir = 3 then [(n + 48, .ind mask true)] else []) ++ rest (.ind mask (g.dir = 1)) agk' svc
          else (if g.dir = 3 then [(n + 48, .acc (ch.bankOf (g.at i).toNat) (ch.rowOf (g.at i).toNat) true (g.closes ch i))] else []) ++
            rest (.acc (ch.bankOf (g.at i).toNat) (ch.rowOf (g.at i).toNat) (g.dir = 1) (g.dir ≠ 3 && g.closes ch i)) agk' svc
        | 2 => rest .refwin agk svc
        | 3 => rest (.svc (svc % 32)) agk (svc + 1)
        | 5 =>
          if g.dir ≠ 1 ∨ !g.ok then rest .idle agk' svc
          else if g.ind then rest (.ind mask true) agk' svc
          else rest (.acc (ch.bankOf (redOff k c sel i)) (ch.rowOf (redOff k c sel i)) true (g.closes ch i)) agk' svc
        | 6 => if isScarab k then rest (if bits (eOpnd e) 43 40 = 1 then .bcast else if bits (eOpnd e) 43 40 = 0 then .lease e else .idle) agk svc
               else rest .idle agk svc
        | _ => rest .idle agk svc

/-- Put a slot's action in its place. -/
def insSlot (a : Nat × Ahead) : List (Nat × Ahead) → List (Nat × Ahead)
  | [] => [a]
  | b :: l => if a.1 < b.1 then a :: b :: l else b :: insSlot a l

/-- The scheduled slots n to n + fuel − 1 of a channel, in order, and the atomic write-backs that fall among them. -/
def State.ahead (s : State) (k c n fuel : Nat) (cur : SCur) : List (Nat × Ahead) :=
  let x := s.sc k c
  let ch := Chan.side k c
  let backs : List (Nat × Ahead) := x.evts.filterMap fun e => match e.2 with
    | .atomic off _ close => some (e.1, .acc (ch.bankOf off) (ch.rowOf off) true close)
    | _ => none
  let l := s.aheadGo k c (n + fuel - 1) (2 * fuel + 2) n
    { cur := cur, agk := x.agk, svc := x.svc, blk := s.str.blk, loops := s.str.loops,
      ends := s.str.scnt.toNat + ((s.ctlBlk s.str.blk).len - s.str.off) }
  ((backs ++ l).filter fun a => n ≤ a.1 && a.1 < n + fuel).foldr insSlot []

/-- The slots ahead that break R311 when they run after a state of the channel. -/
def breaks (x : SChan) (v : VCh) : List (Nat × Ahead) → List Nat
  | [] => []
  | (n, a) :: l =>
    match a with
    | .acc b r w cl => match x.access v n b r w cl with
      | none => n :: breaks x v l
      | some (x, v, _) => breaks x v l
    | .svc b => match x.service v n b with
      | none => n :: breaks x v l
      | some (x, v) => breaks x v l
    | .ind m w =>
      if ((List.range 32).filter m.testBit).all fun b => (x.access v n b 0 w true).isSome then
        breaks { x with lastRead := if w then x.lastRead else some n }
          { v with opens := n :: v.opens, writes := if w then n :: v.writes else v.writes } l
      else n :: breaks x v l
    | .refwin => breaks { x with lastRef := some n } { v with banks := [] } l
    | .bcast => (if within n 3 x.lastRead then [n] else []) ++ breaks x { v with writes := n :: v.writes } l
    | _ => breaks x v l

/-- R310: whether a reserved slot may make an access that opens and closes a bank. -/
def State.reservedOk (s : State) (k c n bk row : Nat) (write : Bool) : Bool :=
  let x := s.sc k c
  let v := s.chan (.side k c)
  (smGet {} v.banks bk : Bank).row.isNone &&
  match x.access v n bk row write true with
  | none => false
  | some (x', v', _) =>
    let l := s.ahead k c (n + 1) 112 x.cur
    decide (breaks x' v' l = breaks x v l)

/-! ### Accesses -/

/-- What a refused or absent access of a list gives: a read delivers poison 8 slots later. -/
def State.sideDeliver (s : State) (k c n : Nat) (g : Sag) (d : Line) : State :=
  let x := s.sc k c
  s.setSc k c { x with evts := x.evts ++ [(n + 8, .egress g.port { data := d })] }

/-- The bank access of one slot at a channel offset: presence (R339), lease (R349), bank rules (R312), then the data. -/
def State.sideAccess (s : State) (k c n : Nat) (g : Sag) (off : Nat) (close : Bool) (line : MLine) (hits : List Nat) : State :=
  let ch := Chan.side k c
  let poison (s : State) : State := if g.dir = 0 then s.sideDeliver k c n g (List.replicate 64 none) else s
  if !s.chPresent ch off then poison (s.chErr ch off ST.ABSENT 3)
  else
    let ahead := (s.ahead k c (n + 1) 57 (s.sc k c).cur).filterMap fun p => match p.2 with
      | .lease e => if (s.leaseRefusal k c p.1 e).isNone then some (p.1, bits (eOpnd e) 7 0) else none
      | _ => none
    if isScarab k ∧ s.leaseNear k c n (ch.bankOf off / 4) ahead then
      poison (((s.errSCB k c (ch.base + off) ST.LEASED 1).bump F.SCB_LEASEDCNT_COUNT k 0 1).sched k 13 1)
    else match (s.sc k c).access (s.chan ch) n (ch.bankOf off) (ch.rowOf off) (g.dir = 1) (if g.dir = 3 then false else close) with
      | none => poison ((s.chErr ch off ST.BANKCONF 1).chSched ch 1)
      | some (x, v, opening) =>
        let s := (s.setSc k c x).setChan ch v
        let s := if opening then s.activate ch (ch.bankOf off) (ch.rowOf off) else s
        match g.dir with
        | 0 => let (d, _, s) := s.readLine ch off; s.sideDeliver k c n g d
        | 1 => if line.null then s else s.writeLine ch off line.data fun _ => true
        | _ =>
          let (d, _, s) := s.readLine ch off
          let d := combineLines g.aop g.fmt d (if line.null then identLine g.aop g.fmt else line.data) hits
          let x := s.sc k c
          s.setSc k c { x with evts := x.evts ++ [(n + 48, .atomic off d close)] }

/-- An ACCESS slot (R317 to R319, R330, R332). -/
def State.sideEntryAccess (s : State) (k c n e : Nat) (hs : List SideHit) : State :=
  let sel := eSag e
  let g := s.sag k (chanSagAt c sel)
  let x := s.sc k c
  let i := smGet 0 x.agk sel
  let s := s.setSc k c { x with agk := smPut 0 x.agk sel ((i + 1) % g.count) }
  let ch := Chan.side k c
  if !g.ok ∨ (g.dir = 3 ∧ 2 < g.aop) then s.sskErr k c (cmdSegAddr k (chanSagAt c sel)) 0 7
  else
    let (hits, s) := if g.dir < 2 then ([], s) else s.adderHits k c hs
    let (head, s) := if g.ind then s.takeIngress k c g.port else ({ data := [] }, s)
    let (line, s) := if g.dir = 0 then ({ data := [] }, s) else s.takeIngress k c g.port
    let place : Option Int := if g.ind then (lineNat (head.data.take 4)).map fun o => (o : Int) else some (g.at i)
    let poison (s : State) : State := if g.dir = 0 then s.sideDeliver k c n g (List.replicate 64 none) else s
    match place with
    | none => poison (s.errSSK k c ch.base ST.ABSENT 3)
    | some a =>
      if g.dir = 2 then
        (if s.chState ch ≠ CH.ONLINE then s.chErr ch 0 ST.ABSENT 3
         else if s.chBand ch = 3 then s.chErr ch 0 ST.THERMAL 5
         else s.contribute k c g.rid (if a < 0 then 64 else a.toNat) n line none hits)
      else if a < 0 ∨ 0x80000000 ≤ a then poison (s.errSSK k c (ch.base + unsext 31 a) ST.ABSENT 3)
      else
        let off := a.toNat / 64 * 64
        if g.ind ∧ g.mask ≠ 0 ∧ !g.mask.testBit (ch.bankOf off) then poison ((s.chErr ch off ST.BANKCONF 1).chSched ch 1)
        else s.sideAccess k c n g off (g.closes ch i) line hits

/-- R331: REDOPEN. -/
def State.redOpen (s : State) (k c n e : Nat) : State :=
  let o := eOpnd e
  let r := bits o 3 0
  let aop := bits o 5 4
  let f := bits o 7 6
  if eNslot e ≠ 1 ∨ aop = 3 ∨ bits o 43 30 = 0 then s.sskErr k c (cmdSegAddr k (s.sc k c).cur.pos) 0 7
  else
    let s := if (s.red k c r).isSome then s.sskErr k c 0 0 10 else s
    let l := bits o 13 8 + 1
    s.setRed k c r (some { aop := aop, fmt := f, exp := bits o 29 14 + 1, deadline := n + bits o 43 30,
                           lines := List.replicate l (identLine aop f), cnts := List.replicate l 0 })

/-- R333: REDCLOSE writes one line of a reduction: to an egress queue (DIR 0b00), or to the channel (DIR 0b01), where the offset
comes from the ingress queue in indirect mode, within BANKMASK, and is otherwise a free value (`redOff`). -/
def State.redClose (s : State) (k c n e : Nat) : State :=
  let sel := eSag e
  let g := s.sag k (chanSagAt c sel)
  let x := s.sc k c
  let i := smGet 0 x.agk sel
  let s := s.setSc k c { x with agk := smPut 0 x.agk sel ((i + 1) % g.count) }
  let ch := Chan.side k c
  if !g.ok ∨ 2 ≤ g.dir then s.sskErr k c (cmdSegAddr k (chanSagAt c sel)) 0 7
  else
    let line := if g.at i < 0 then 64 else (g.at i).toNat
    let (d, s) := match s.red k c g.rid with
      | none => (List.replicate 64 none, s.sskErr k c 0 0 10)
      | some v =>
        let early := n < v.deadline ∨ v.lines.length ≤ line
        let s := if early then s.sskErr k c 0 0 10 else s
        let d := if early then List.replicate 64 none else (v.lines[line]?).getD []
        let v := { v with wrote := v.wrote + 1 }
        if v.wrote < v.lines.length then (d, s.setRed k c g.rid (some v))
        else
          let pois := v.lines.any fun l => l.any (·.isNone)
          (d, (if pois then s.bump F.SSK_REDCNT_POIS k 0 1 else s).setRed k c g.rid none)
    if g.dir = 0 then s.sideDeliver k c n g d
    else
      let (off, s) := if g.ind then
          let (h, s) := s.takeIngress k c g.port
          (lineNat (h.data.take 4), s)
        else (some (redOff k c sel i), s)
      match off with
      | none => s.errSSK k c ch.base ST.ABSENT 3
      | some o => if 0x80000000 ≤ o then s.errSSK k c ch.base ST.ABSENT 3
        else if g.ind ∧ g.mask ≠ 0 ∧ !g.mask.testBit (ch.bankOf (o / 64 * 64)) then (s.chErr ch (o / 64 * 64) ST.BANKCONF 1).chSched ch 1
        else s.sideAccess k c n g (o / 64 * 64) (g.closes ch i) { data := d } []

/-- R325, R350: one slot of a refresh window. -/
def State.refWin (s : State) (k c n e : Nat) : State :=
  let x := s.sc k c
  let first := x.cur.used = 0
  if eNslot e ≠ 160 then (if first then s.sskErr k c (cmdSegAddr k x.cur.pos) 0 7 else s)
  else if first then
    if x.lease.isSome then
      let s := s.setSc k c { x with refIdle := true }
      ((s.errSCB k c (cmdSegAddr k x.cur.pos) ST.LEASED 13).bump F.SCB_SKIPCNT_COUNT k 0 1).sched k 13 13
    else
      let s := s.setSc k c { x with refIdle := false, lastRef := some n }
      let ch := Chan.side k c
      let s := if 1 ≤ s.owed ch then (s.setOwed ch (s.owed ch - 1)).modChan ch fun v => { v with rounds := v.rounds + 1 } else s
      s.modChan ch fun v => { v with banks := v.banks.map fun p => (p.1, { p.2 with row := none }) }
  else if x.refIdle then s
  else
    let s := s.setSc k c { x with lastRef := some n }
    s.modChan (.side k c) fun v => { v with banks := v.banks.map fun p => (p.1, { p.2 with row := none }) }

/-- R324: a service slot. -/
def State.svcSlot (s : State) (k c n : Nat) : State :=
  let x := s.sc k c
  let b := x.svc % 32
  let ch := Chan.side k c
  let s := s.setSc k c { x with svc := x.svc + 1 }
  if s.leasedNow k c (ch.rowOff b 0) then s.bump F.SCB_SKIPCNT_COUNT k 0 1
  else match (s.sc k c).service (s.chan ch) n b with
    | none => (s.chErr ch (ch.rowOff b 0) ST.BANKCONF 1).chSched ch 1
    | some (x, v) =>
      let s := (s.setSc k c x).setChan ch v
      if s.chState ch = CH.ONLINE then s.serveBank ch b else s

/-- R353: one slot of a BCAST entry. -/
def State.bcastSlot (s : State) (k c n e : Nat) : State :=
  let x := s.sc k c
  let o := eOpnd e
  if bits o 39 10 ≠ 0 ∨ 128 < eNslot e then (if x.cur.used = 0 then s.sskErr k c (cmdSegAddr k x.cur.pos) 0 7 else s)
  else
    let (l, s) := s.takeIngress k c (bits o 2 0)
    if within n 3 x.lastRead then s.sskErr k c (cmdSegAddr k x.cur.pos) ST.BANKCONF 1
    else
    let s := s.modChan (.side k c) fun v => { v with writes := n :: v.writes.filter (fun u => n < u + 200) }
    let i := (bits o 9 3 + x.cur.used) % 128
    if l.null then s
    else
      let x := s.sc k c
      s.setSc k c { x with evts := x.evts ++ [(n + 8, .bline i l.data)] }

/-! ### The side cache (R335, R336) -/

/-- Read a cache line. -/
def State.readCache (s : State) (k c line : Nat) : Line × State :=
  (List.range 2).foldl (fun (p : Line × State) i =>
    let w := cacheKey k line / 32 + i
    let (d, o) := p.2.decodeWord 4 w []
    let s := match o with
      | .corr _ _ => p.2.bump F.SSK_CORRCNT_COUNT k 0 1
      | .uncorr => ((p.2.bump F.SSK_UNCCNT_COUNT k 0 1).total 1).errSSK k c (64 * line) ST.UNCORR 2
      | _ => p.2
    (p.1 ++ d, s)) ([], s)

def State.writeCache (s : State) (k line : Nat) (d : Line) : State :=
  (s.storeWord 4 (cacheKey k line / 32) (d.take 32)).storeWord 4 (cacheKey k line / 32 + 1) (d.drop 32)

/-- STREAM_START: every cache line is zero data with valid check bytes. -/
def State.clearCache (s : State) : State :=
  { s with mem := s.mem.filter fun p => p.1 < 2 ^ 48 ∨ 2 ^ 49 ≤ p.1, syn := s.syn.filter fun p => p.1 < 2 ^ 43 ∨ 2 ^ 44 ≤ p.1 }

/-- R336: one cc of a cache lane. -/
def State.laneSlot (s : State) (k l : Nat) : State :=
  let x : CLane := smGet {} (s.stkOf k).lanes l
  let put (s : State) (x : CLane) : State := s.setStk k { s.stkOf k with lanes := smPut {} (s.stkOf k).lanes l x }
  match s.entryAt k x.cur with
  | none =>
    let s := put s { x with next := x.next + 1, cur := { x.cur with ended := true } }
    if x.cur.live ∧ !x.cur.ended then s.sskErr k 0 0 0 6 else s
  | some e =>
    let sel := eSag e
    let g := s.sag k (laneSagAt l sel)
    let i := smGet 0 x.agk sel
    let bad := (eOp e ≠ 0 ∧ eOp e ≠ 1) ∨ (eOp e = 1 ∧ (!g.ok ∨ g.dir ≠ 0 ∨ g.ind ∨ g.at i < 0 ∨ 393216 ≤ g.at i))
    let agk := if eOp e = 1 then smPut 0 x.agk sel ((i + 1) % g.count) else x.agk
    let s := put s { x with next := x.next + 1, agk := agk, cur := x.cur.step e }
    if bad then s.sskErr k 0 (cmdSegAddr k (if eOp e ≤ 1 then laneSagAt l sel else x.cur.pos)) 0 7
    else if eOp e = 0 then s
    else
      let (d, s) := s.readCache k 0 (g.at i).toNat
      s.putEgress k 0 g.port { data := d }

/-- The fill line that is due in a reserved slot of a channel. -/
def State.dueFill (s : State) (k c n : Nat) : Option Fill :=
  (s.stkOf k).fills.find? fun f => f.ch = c ∧ f.start ≤ n ∧ 0 < f.count

/-- R335: a reserved slot moves one fill line. -/
def State.fillSlot (s : State) (k c n : Nat) (f : Fill) : State :=
  let st := s.stkOf k
  let next := { f with count := f.count - 1, src := f.src + 1, line := f.line + 1 }
  let s := s.setStk k { st with fills := (st.fills.map fun x => if x = f then next else x).filter fun x => 0 < x.count }
  let s := s.bump F.SSK_FILLCNT_COUNT k 0 1
  let ch := Chan.side k c
  let off := 64 * f.src
  let later (s : State) (d : Line) : State :=
    let x := s.sc k c
    s.setSc k c { x with evts := x.evts ++ [(n + 8, .fill f.line d)] }
  if !s.chPresent ch off then later (s.chErr ch off ST.ABSENT 3) (List.replicate 64 none)
  else if s.leasedNow k c off then
    later ((s.errSCB k c (ch.base + off) ST.LEASED 14).sched k 13 1) (List.replicate 64 none)
  else if !s.reservedOk k c n (ch.bankOf off) (ch.rowOf off) false then
    later ((s.chErr ch off ST.BANKCONF 1).chSched ch 1) (List.replicate 64 none)
  else match (s.sc k c).access (s.chan ch) n (ch.bankOf off) (ch.rowOf off) false true with
    | none => s
    | some (x, v, _) =>
      let s := ((s.setSc k c x).setChan ch v).activate ch (ch.bankOf off) (ch.rowOf off)
      let (d, _, s) := s.readLine ch off
      later s d

/-- R309, R350: the host line that a reserved slot takes. -/
def State.hostPick (s : State) (k c n : Nat) : Option HLine :=
  (s.hqGet (128 + 32 * k + c)).find? fun l =>
    let off := l.addr % 0x80000000
    s.isLeased l || s.reservedOk k c n ((Chan.side k c).bankOf off) ((Chan.side k c).rowOf off) l.write

/-- R309: a reserved slot of a channel. -/
def State.reservedSlot (s : State) (k c n : Nat) : State :=
  match s.dueFill k c n with
  | some f => s.fillSlot k c n f
  | none =>
    match s.hostPick k c n with
    | none => s
    | some l =>
      let ch := Chan.side k c
      let off := l.addr % 0x80000000
      let q := 128 + 32 * k + c
      let s := s.hqSet q ((s.hqGet q).filter (· ≠ l))
      let s := if s.isLeased l then s
        else match (s.sc k c).access (s.chan ch) n (ch.bankOf off) (ch.rowOf off) l.write true with
          | some (x, v, _) => ((s.setSc k c x).setChan ch v).activate ch (ch.bankOf off) (ch.rowOf off)
          | none => s
      (s.serveHostLine l).pullPorts.finishReads

end Sys2Proof.Machine
end

