-- ==== Sys2Proof/Machine/Scarab.lean ====
section
/-!
DEFINITION. Scarab near-bank compute (chapter 09): leases, their phases and results; and the whole of one line slot of a side
channel, with what a block boundary does to the side lists.
-/
namespace Sys2Proof.Machine

/-! ### Job records (R345, R355, R356) -/

def jField (j : List Byte) (o n : Nat) : Nat := leNat ((j.drop o).take n)

/-- R344: weight and vector formats of a job, if it names them. -/
def jWf (j : List Byte) : Option Fmt :=
  match jField j 0 1 % 16 with
  | 2 => some .e4m3 | 3 => some .e5m2 | 6 => some .e2m1 | _ => none
def jVf (j : List Byte) : Option Fmt :=
  match jField j 0 1 / 16 with
  | 2 => some .e4m3 | 3 => some .e5m2 | _ => none
def jOut (j : List Byte) : Fmt := if jField j 1 1 % 16 = 0 then .fp32 else .bf16
def jRow (j : List Byte) : Bool := decide (jField j 1 1 / 16 % 2 = 1)
def jNjob (j : List Byte) : Nat := jField j 3 1
def jNb (j : List Byte) : Nat := jField j 4 2
def jK (j : List Byte) : Nat := jField j 6 2
def jNrow (j : List Byte) : Nat := jField j 8 1
def jUsh (j : List Byte) : Nat := jField j 9 1

/-- R345: the size of a weight row of `k` elements. -/
def scbRowBytes (w : Fmt) (k : Nat) : Nat :=
  let tile := if w = .e2m1 then 544 else 1056
  let blk := if w = .e2m1 then 17 else 33
  tile * (k / 1024) + (blk * (k % 1024 / 32) + 31) / 32 * 32

/-- R355: whether a job record keeps its ranges. -/
def jobOk (j : List Byte) : Bool :=
  let nout := jNjob j * jNrow j
  let lim := if jField j 1 1 % 16 = 0 then 8 else 16
  (jWf j).isSome && (jVf j).isSome && decide (jField j 1 1 % 16 ≤ 1) && decide (jField j 1 1 / 32 = 0) &&
  decide (1 ≤ jNjob j) && decide (jNjob j ≤ 8) && decide (jNb j ≤ 256) && decide (jK j % 32 = 0) && decide (32 ≤ jK j) &&
  decide (jK j ≤ 7936) && decide (1 ≤ jNrow j) && decide (jNrow j ≤ 16) && decide (jUsh j ≤ 4) && decide (jField j 10 1 < 16) &&
  decide (jField j 11 1 ≤ 63) && decide (jField j 12 4 % 32 = 0) && decide (jField j 16 4 % 32 = 0) && decide (jField j 20 2 % 32 = 0) &&
  decide (jField j 22 2 % 32 = 0) && decide (jField j 24 2 % 32 = 0) && decide (jField j 26 2 % 2 = 0) && decide (1 ≤ jField j 28 2) &&
  decide (jField j 30 2 = 0) && decide (jField j 32 4 % 32 = 0) && decide (jField j 36 28 = 0) &&
  [1, 2, 4, 8, 16].contains nout && decide (nout ≤ lim)

def ceilBy (a b : Nat) : Nat := (a + b - 1) / b

/-- The leased units in ascending order. -/
def unitsOf (gmask : Nat) : List Nat := (List.range 16).filter fun u => gmask.testBit (u / 2)

/-- R356: Scarab cycles of the compute phase. -/
def scbCycles (j : List Byte) : Nat :=
  36 + jNjob j * (ceilBy (jNrow j * scbRowBytes ((jWf j).getD .e4m3) (jK j)) 32 + 4)

/-- R356: the frames of the broadcast, compute and result phases. -/
def scbPhases (j : List Byte) (gmask : Nat) : Nat × Nat × Nat :=
  (ceilBy (8 * jNb j) 25, ceilBy (scbCycles j) 8, if jRow j then 2 else ceilBy (8 * (unitsOf gmask).length) 25)

/-! ### Units (R343, R357 to R361) -/

/-- R343: channel offset of a unit-local offset. -/
def unitOff (u y : Nat) : Nat := y % 0x800 + 0x800 * (2 * u + y / 0x800 % 2) + 0x10000 * (y / 0x1000)

/-- A byte of a unit's vector buffer. A place beyond its 8 KiB is a free value of the place, keyed above every address. -/
def State.vbyte (s : State) (k c u i : Nat) : PByte :=
  if i < 8192 then smGet (some 0) (s.sc k c).vbuf (8192 * u + i) else
    some (Config.undefByte s.free (2 ^ 60 + 2 ^ 40 * (64 * (4 * k + c) + u) + i))

/-- R361: read a weight word: corrected, not written back, merge entries not seen. -/
def State.weightWord (s : State) (k c off : Nat) : Line × State :=
  let w := sideAddr k c off / 32
  let (d, o) := s.decodeWord 4 w []
  match o with
  | .corr _ _ => (d, s.bump F.SCB_CORRCNT_COUNT k 0 1)
  | .uncorr => (d, ((s.bump F.SCB_UNCCNT_COUNT k 0 1).total 1).errSCB k c (32 * w) ST.UNCORR 12)
  | _ => (d, s)

/-- Unit-local bytes as the unit reads them. -/
def State.weightBytes (s : State) (k c u y len : Nat) : Line × State :=
  (List.range (len / 32)).foldl (fun (p : Line × State) i =>
    let (d, s) := p.2.weightWord k c (unitOff u (y + 32 * i))
    (p.1 ++ d, s)) ([], s)

/-- The vector operand k of a region, with its block exponent (R344). -/
def State.scbVec (s : State) (k c u base : Nat) (j : List Byte) (i : Nat) : Option (FV × Int) :=
  let vf := (jVf j).getD .e4m3
  operand vf false ((s.vbyte k c u (base + i)).map (·.toNat)) (s.vbyte k c u (base + jK j + i / 32))

/-- R133: the largest block exponent of a vector region. -/
def State.scbMaxExp (s : State) (k c u base : Nat) (j : List Byte) : Int :=
  (((List.range (jK j / 32)).filterMap fun i => (s.vbyte k c u (base + jK j + i)).bind fun b => scaleExp b.toNat).max?).getD 0

/-- R344, R345: the result of one row: tiles of 32 blocks, the scale bytes leading. -/
def State.scbRow (s : State) (k c u base : Nat) (j : List Byte) (row : Line) : Option Nat :=
  let wf := (jWf j).getD .e4m3
  let kk := jK j
  let tile := if wf = .e2m1 then 544 else 1056
  let cs := (List.range kk).foldl (fun cs i =>
    let t := i / 1024
    let nb := min 32 ((kk - 1024 * t) / 32)
    let d := row.drop (tile * t)
    let x := elemAt wf.width (d.drop nb) (i % 1024)
    cs.times (operand wf false x ((d[i % 1024 / 32]?).getD none)) (s.scbVec k c u base j i)) ({ col := 0 } : ColSum)
  let acc : Acc := { w := s.scbMaxExp k c u base j + sext 8 (jField j 2 1) }
  (acc.enterCol cs).1.convert (jOut j)

/-- R358: the results of one job of a unit. -/
def State.scbJob (s : State) (k c u : Nat) (l : Lease) (jn : Nat) : List (Option Nat) × State :=
  let j := l.job
  let nrow := jNrow j
  let poisoned : List (Option Nat) := List.replicate nrow none
  let jaddr := cmdSegAddr k l.jrec
  if s.chState (.side k c) ≠ CH.ONLINE then (poisoned, s.errSCB k c jaddr ST.ABSENT 10)
  else match s.vbyte k c u (jField j 26 2 + 2 * jn), s.vbyte k c u (jField j 26 2 + 2 * jn + 1) with
  | some lo, some hi =>
    let sel := lo.toNat + 256 * hi.toNat
    if sel = 0xFFFF then (List.replicate nrow (some 0), s)
    else if jField j 28 2 ≤ sel then (poisoned, (s.errSCB k c jaddr ST.PROT 9).sched k 13 9)
    else
      let rb := scbRowBytes ((jWf j).getD .e4m3) (jK j)
      let y := jField j 12 4 + sel * jField j 16 4
      if 0x6000000 < y + nrow * rb then (poisoned, s.errSCB k c jaddr ST.ABSENT 10)
      else
        let base := jField j 20 2 + jn * jField j 22 2 + u % 2 ^ jUsh j * jField j 24 2
        let (d, s) := s.weightBytes k c u y (nrow * rb)
        ((List.range nrow).map fun r => s.scbRow k c u base j ((d.drop (r * rb)).take rb), s)
  | _, _ => (poisoned, s)

/-- The results of a unit's jobs, with the mismatches of the lease (R362). -/
def State.scbUnit (s : State) (k c u : Nat) (l : Lease) : List (Option Nat) × State :=
  let (rs, s) := (List.range (jNjob l.job)).foldl (fun (p : List (Option Nat) × State) jn =>
    let (r, s) := p.2.scbJob k c u l jn
    (p.1 ++ r, s)) ([], s)
  (rs.zipIdx.map fun p => if l.hits.contains (u, p.2) then none else p.1, { s with free := s.free + 1 })

/-- R360: the result word of a unit in ROW mode. -/
def State.scbRowMode (s : State) (k c u : Nat) (l : Lease) (rs : List (Option Nat)) : State :=
  let j := l.job
  let y := jField j 32 4
  let row := y / 0x1000
  if 0x6000000 ≤ y ∨ row < s.fget F.SCB_RESROW_RRLO k ∨ s.fget F.SCB_RESROW_RRHI k < row then
    (s.errSCB k c (cmdSegAddr k l.jrec) ST.PROT 11).sched k 13 11
  else if s.chState (.side k c) ≠ CH.ONLINE then s.chErr (.side k c) (unitOff u y) ST.ABSENT 3
  else if s.chBand (.side k c) = 3 then s.chErr (.side k c) (unitOff u y) ST.THERMAL 5
  else
    let b := (jOut j).width / 8
    let d : Line := if rs.any (·.isNone) then List.replicate 32 none
      else (((rs.flatMap fun (r : Option Nat) => leBytes b (r.getD 0)) ++ List.replicate 32 0).take 32).map some
    s.writeWord (.side k c) (unitOff u y) d

/-- R359: the contribution of the m-th leased unit: line of the reduction and its data. -/
def busLine (l : Lease) (u : Nat) (rs : List (Option Nat)) : Nat × Line :=
  let j := l.job
  let b := (jOut j).width / 8
  let lam := 64 / b
  let p0 := (u >>> jUsh j) * rs.length
  let lane := p0 % lam
  let d : Line := (rs.flatMap fun r => match r with
    | some v => (leBytes b v).map some
    | none => List.replicate b none)
  (jField j 11 1 + p0 / lam, List.replicate (b * lane) (some 0) ++ d ++ List.replicate (64 - b * lane - d.length) (some 0))

/-- End a lease: its tokens return, its groups are closed and free (R348). -/
def State.endLease (s : State) (k c n : Nat) : State :=
  let x := s.sc k c
  match x.lease with
  | none => s
  | some l =>
    let s := s.setSc k c { x with lease := none, pastLease := (l.gmask, n) :: x.pastLease.filter fun p => decide (n < p.2 + 56) }
    s.modChan (.side k c) fun v => { v with banks := v.banks.filter fun p => !l.gmask.testBit (p.1 / 4) }

/-- What a lease does at the start of slot `n` (R357, R358, R360). -/
def State.leasePhase (s : State) (k c n : Nat) : State :=
  let x := s.sc k c
  match x.lease with
  | none => s
  | some l =>
    let o := n - l.start
    if 25 * l.lenf ≤ o then s.endLease k c n
    else if !l.runs then s
    else
      let nb := jNb l.job
      let us := unitsOf l.gmask
      let s := if o % 8 = 0 ∧ o / 8 < nb then
          let i := o / 8 / 2
          let d : Line := if smGet false x.bvalid i then ((smGet [] x.bbuf i).drop (32 * (o / 8 % 2))).take 32 else List.replicate 32 none
          let cells := us.flatMap fun u => d.zipIdx.map fun p => (8192 * u + 32 * (o / 8) + p.2, p.1)
          s.setSc k c { x with vbuf := smPuts (some 0) x.vbuf cells }
        else if nb ≠ 0 ∧ o = 8 * nb then
          s.setSc k c { x with bvalid := x.bvalid.filter fun p => decide ((nb + 1) / 2 ≤ p.1) }
        else s
      if o = 25 * (l.fb + l.fc) then
        let (rs, s) := us.foldl (fun (p : List (Nat × List (Option Nat)) × State) u =>
          let (r, s) := p.2.scbUnit k c u l
          (p.1 ++ [(u, r)], s)) ([], s)
        let x := s.sc k c
        let s := s.setSc k c { x with lease := some { l with results := rs } }
        if jRow l.job then rs.foldl (fun s p => s.scbRowMode k c p.1 l p.2) s else s
      else s

/-- R359: the contribution over the channel's bus that falls in slot `n`. -/
def State.leaseBus (s : State) (k c n : Nat) (hs : List SideHit) : State :=
  match (s.sc k c).lease with
  | none => s
  | some l =>
    let o := n - l.start - 25 * (l.fb + l.fc)
    if !l.runs ∨ jRow l.job ∨ n ≤ l.start + 25 * (l.fb + l.fc) ∨ o % 8 ≠ 0 then s
    else match l.results[o / 8 - 1]? with
      | none => s
      | some (u, rs) =>
        let (line, d) := busLine l u rs
        let (hits, s) := s.adderHits k c hs
        let ch := Chan.side k c
        -- R328, R339: a contribution is a write
        if s.chState ch ≠ CH.ONLINE then s.chErr ch 0 ST.ABSENT 3
        else if s.chBand ch = 3 then s.chErr ch 0 ST.THERMAL 5
        else s.contribute k c (jField l.job 10 1) line n { data := d } (some (jField l.job 1 1 % 16)) hits

/-- R347, R348, R356: a LEASE entry in slot `n`. -/
def State.leaseSlot (s : State) (k c n e : Nat) : State :=
  let x := s.sc k c
  let o := eOpnd e
  if x.cur.used ≠ 0 then s
  else match s.leaseRefusal k c n e with
    | some (st, cause, ev) =>
      let s := s.setSc k c { x with bvalid := [] }
      let s := (s.errSCB k c (cmdSegAddr k x.cur.pos) st cause).bump F.SCB_REFUSECNT_COUNT k 0 1
      if ev then s.raise .scbRefuse k c cause 0 (halfOfStack k) else s.sched k 13 cause
    | none =>
      let gm := bits o 7 0
      let jrec := 64 * bits o 33 20
      let job := s.bytes (cmdKey k jrec) 64
      let (fb, fc, fr) := scbPhases job gm
      let runs := jobOk job && decide (fb + fc + fr + 1 ≤ bits o 16 8) && decide (1216 ≤ bits o 33 20)
      let l : Lease := { start := n, lenf := bits o 16 8, gmask := gm, job := job, jrec := jrec, runs := runs, fb := fb, fc := fc }
      let s := s.setSc k c { x with lease := some l }
      let shut (p : Nat × Bank) : Nat × Bank := if gm.testBit (p.1 / 4) then (p.1, { p.2 with row := none }) else p
      let s := (s.modChan (.side k c) fun v => { v with banks := v.banks.map shut }).bump F.SCB_LEASECNT_COUNT k 0 1
      let s := if runs then s else (s.errSCB k c (cmdSegAddr k jrec) ST.DESC 8).sched k 13 8
      s.leasePhase k c n

/-- R362: a mismatch of a Scarab unit: counted, recorded, raised; it poisons the result it falls on. -/
def State.scbHits (s : State) (k c : Nat) (hs : List SideHit) : State :=
  (hs.filter fun h => h.stk = k ∧ h.ch = c ∧ h.unit < 16).foldl (fun s h =>
    let x := s.sc k c
    let lease := x.lease.map fun l => { l with hits := (h.unit, h.lane) :: l.hits }
    let s := s.setSc k c { x with stepHits := x.stepHits + 1, lease := lease }
    let s := (s.bump F.SCB_RESCNT_COUNT k 0 1).total 2
    let s := if s.flag F.SCB_RESLOG1_VALID k then s
      else ((s.w1cMark .SCB_RESLOG1 k 0 (2 ^ 24)).rset .SCB_RESLOG0 k 0 s.str.scnt.toNat).rset .SCB_RESLOG1 k 0 (2 ^ 24 + c * 2 ^ 16 + h.unit * 2 ^ 8 + h.check % 16)
    s.raise .residue (0x8000 + 32 * k + c) (0x10 + h.unit) h.check s.scnt32 (halfOfStack k)) s

/-! ### One line slot -/

/-- What reaches its place in slot `n`: data of earlier slots (R310, R330, R335, R353). -/
def State.sideArrivals (s : State) (k c n : Nat) : State :=
  let x := s.sc k c
  let due := (x.evts.filter fun e => e.1 ≤ n).map (·.2)
  let s := s.setSc k c { x with evts := x.evts.filter fun e => n < e.1 }
  due.foldl (fun s e => match e with
    | .egress q l => s.putEgress k c q l
    | .fill line d => s.writeCache k line d
    | .bline i d =>
      let x := s.sc k c
      s.setSc k c { x with bbuf := smPut [] x.bbuf i d, bvalid := smPut false x.bvalid i true }
    | .atomic off d close =>
      let ch := Chan.side k c
      let idle : Bool := match s.entryAt k (s.sc k c).cur with
        | some e => eOp e = 0
        | none => true
      if !idle then s.sskErr k c (ch.base + off) 0 9
      else match (s.sc k c).access (s.chan ch) n (ch.bankOf off) (ch.rowOf off) true close with
        | none => (s.chErr ch off ST.BANKCONF 1).chSched ch 1
        | some (x, v, _) => ((s.setSc k c x).setChan ch v).writeLine ch off d fun _ => true) s

/-- The entry of a scheduled slot. -/
def State.entrySlot (s : State) (k c n e : Nat) (hs : List SideHit) : State :=
  match eOp e with
  | 0 => s
  | 1 => s.sideEntryAccess k c n e hs
  | 2 => s.refWin k c n e
  | 3 => s.svcSlot k c n
  | 4 => if (s.sc k c).cur.used = 0 then s.redOpen k c n e else s
  | 5 => s.redClose k c n e
  | op =>
    let sub := bits (eOpnd e) 43 40
    if op = 6 ∧ isScarab k ∧ sub = 0 then s.leaseSlot k c n e
    else if op = 6 ∧ isScarab k ∧ sub = 1 then s.bcastSlot k c n e
    else if (s.sc k c).cur.used = 0 then s.sskErr k c (cmdSegAddr k (s.sc k c).cur.pos) 0 7 else s

/-- Whether the slot of an entry uses the channel's adder: a contribution or an atomic access. -/
def State.usesAdder (s : State) (k c e : Nat) : Bool := eOp e = 1 && decide (2 ≤ (s.sag k (chanSagAt c (eSag e))).dir)

/-- Whether the bus of a lease contributes in slot `n` (R359). -/
def State.busDue (s : State) (k c n : Nat) : Bool := match (s.sc k c).lease with
  | some l => l.runs && !jRow l.job && decide (l.start + 25 * (l.fb + l.fc) < n) && (n - l.start - 25 * (l.fb + l.fc)) % 8 = 0 &&
      decide ((n - l.start - 25 * (l.fb + l.fc)) / 8 ≤ (unitsOf l.gmask).length)
  | none => false

/-- The whole of line slot `n` of a channel. -/
def State.sideSlot (s : State) (k c n : Nat) (hs : List SideHit) : State :=
  let s := ((s.scbHits k c hs).sideArrivals k c n).leasePhase k c n
  let s := s.deadlines k c n
  let cur := (s.sc k c).cur
  let mine : Bool := n % 16 ≠ 15 && (match s.entryAt k cur with
    | some e => s.usesAdder k c e
    | none => false)
  let s := if n % 16 = 15 then s.reservedSlot k c n
    else
      match s.entryAt k cur with
      | some e =>
        let s := s.entrySlot k c n e hs
        let x := s.sc k c
        s.setSc k c { x with cur := x.cur.step e }
      | none =>
        if cur.live ∧ !cur.ended then
          let x := s.sc k c
          (s.setSc k c { x with cur := { cur with ended := true } }).sskErr k c 0 0 6
        else s
  let s := s.leaseBus k c n (if mine then [] else hs)
  let x := s.sc k c
  s.setSc k c { x with next := n + 1 }

/-- The slots of a channel that are left in SCNT `t`. -/
def State.slotsLeft (s : State) (k c t : Nat) : List Nat :=
  (List.range (firstSlot (t + 1) - firstSlot t)).filterMap fun i =>
    let n := firstSlot t + i
    if (s.sc k c).next ≤ n then some n else none

/-- Whether a side channel has anything to do in a slot: it is idle where it has no list, nothing queued and nothing in
progress. -/
def State.sideBusy (s : State) (k c : Nat) : Bool :=
  let x := s.sc k c
  x.cur.live || !x.evts.isEmpty || !x.reds.isEmpty || x.lease.isSome || !(s.hqGet (128 + 32 * k + c)).isEmpty ||
    (s.stkOf k).fills.any (fun f => f.ch = c)

/-- The mismatches of a bundle that fall in slot `n`: those of a channel's units fall in its first slot of the cycle, those of its adder
in the first slot that uses it. -/
def State.slotHits (s : State) (k c n : Nat) (hs : List SideHit) : List SideHit :=
  let acc : Bool := s.busDue k c n || n % 16 ≠ 15 && (match s.entryAt k (s.sc k c).cur with
    | some e => s.usesAdder k c e
    | none => false)
  hs.filter fun h => h.stk = k && h.ch = c && (decide (h.unit < 16) || acc)

/-- Run every slot of SCNT `t` that has not run, in every stack, and the cache lanes of that cycle. -/
def State.sideCycle (s : State) (t : Nat) (hs : List SideHit) : State :=
  let s := (List.range 256).foldl (fun s i =>
    let k := i / 32
    let c := i % 32
    if s.sideBusy k c ∨ hs.any (fun h => h.stk = k ∧ h.ch = c) then
      ((s.slotsLeft k c t).foldl (fun (p : List SideHit × State) n =>
        let mine := p.2.slotHits k c n p.1
        (p.1.filter fun h => !mine.contains h, p.2.sideSlot k c n mine)) (hs, s)) |> fun p => p.2.scbHits k c p.1
    else s) s
  (List.range 64).foldl (fun s i =>
    let x : CLane := smGet {} (s.stkOf (i / 8)).lanes (i % 8)
    if x.cur.live ∧ x.next ≤ t then s.laneSlot (i / 8) (i % 8) else s) s

/-! ### Blocks -/

/-- R316: a list that runs past the end of the block is cut. -/
def State.sideCuts (s : State) : State :=
  let s := (List.range 256).foldl (fun s i =>
    let x := s.sc (i / 32) (i % 32)
    if x.cur.live ∧ x.cur.rest ≠ 0 then (s.sskErr (i / 32) (i % 32) 0 0 6).setSc (i / 32) (i % 32) { x with cur := {} } else s) s
  let s := (List.range 64).foldl (fun s i =>
    let x : CLane := smGet {} (s.stkOf (i / 8)).lanes (i % 8)
    if x.cur.live ∧ x.cur.rest ≠ 0 then
      let s := s.sskErr (i / 8) 0 0 0 6
      s.setStk (i / 8) { s.stkOf (i / 8) with lanes := smPut {} (s.stkOf (i / 8)).lanes (i % 8) { x with cur := {} } }
    else s) s
  (List.range 8).foldl (fun s k =>
    if (s.stkOf k).fills.isEmpty then s else (s.sskErr k 0 0 0 6).setStk k { s.stkOf k with fills := [] }) s

/-- R316, R335: every channel and cache lane starts its list of block `blk`, whose first SCNT is `t`. -/
def State.sideBlock (s : State) (blk t : Nat) : State :=
  let s := s.sideCuts
  let s := (List.range 256).foldl (fun s i =>
    let k := i / 32
    let c := i % 32
    let x := s.sc k c
    let cur := s.blockList k blk (8 * c)
    if cur = x.cur then s else s.setSc k c { s.sc k c with cur := cur, next := max (s.sc k c).next (firstSlot t) }) s
  let s := (List.range 64).foldl (fun s i =>
    let k := i / 8
    let l := i % 8
    let x : CLane := smGet {} (s.stkOf k).lanes l
    let cur := s.blockList k blk (256 + 8 * l)
    if cur = x.cur then s
    else s.setStk k { s.stkOf k with lanes := smPut {} (s.stkOf k).lanes l { x with cur := cur, next := max x.next t } }) s
  (List.range 8).foldl (fun s k =>
    let st := s.stkOf k
    let p := s.blockList k blk 320
    let fills := if p.live then (List.range p.rest).map fun i =>
        let r := s.cmdNat k (p.pos + 16 * i) 16
        ({ start := firstSlot t + bits r 31 0, ch := bits r 36 32, count := bits r 63 40, src := bits r 95 64, line := bits r 127 96 } : Fill)
      else []
    let good := fills.filter fun f => 0 < f.count ∧ f.line + f.count ≤ 393216
    let s := if good.length < (fills.filter fun f => 0 < f.count).length then s.sskErr k 0 0 0 7 else s
    if st.fills.isEmpty ∧ good.isEmpty then s else s.setStk k { s.stkOf k with fills := good }) s

/-- R352: STREAM_START, STREAM_LOAD, an END block, FAULTED and warm reset end every lease. -/
def State.endLeases (s : State) : State :=
  s.sch.foldl (fun s p => if p.2.lease.isSome then s.endLease (p.1 / 32) (p.1 % 32) p.2.next else s) s

/-- R363: at a step boundary a channel whose mismatches reached the limit is marked failed. -/
def State.scbStep (s : State) : State :=
  let s := s.sch.foldl (fun s p =>
    let k := p.1 / 32
    let c := p.1 % 32
    let lim := max 1 (s.fget F.SCB_RESCFG_LIMIT)
    if s.flag F.SCB_RESCFG_FAILEN ∧ lim ≤ p.2.stepHits ∧ !(s.fget F.SCB_FAIL_FAILED k).testBit c then
      (s.fset F.SCB_FAIL_FAILED k 0 (s.fget F.SCB_FAIL_FAILED k + 2 ^ c)).raise .scbFail k c 0 0 (halfOfStack k)
    else s) s
  { s with sch := (s.sch.map fun (p : Nat × SChan) => (p.1, { p.2 with stepHits := 0 })).filter fun (p : Nat × SChan) => decide (p.2 ≠ ({} : SChan)) }

/-- The queues, fills and lanes of every stack are empty; the band that its temperature gives stays (R326). -/
def State.freshStks (s : State) : State :=
  { s with stk := (s.stk.map fun p => (p.1, ({ newBand := p.2.newBand } : Stk))).filter fun p => decide (p.2 ≠ ({} : Stk)) }

/-- STREAM_START: the side stacks' queues, lists, reductions, generators and cache are fresh; the command memories hold the image's
command segments; the broadcast and vector buffers keep their contents. -/
def State.sideStart (s : State) : State :=
  let s := s.endLeases
  let keep (x : SChan) : SChan := { ({} : SChan) with bbuf := x.bbuf, bvalid := x.bvalid, vbuf := x.vbuf }
  let sch := (s.sch.map fun p => (p.1, keep p.2)).filter fun p => decide (p.2 ≠ ({} : SChan))
  let s := { s with sch := sch }.freshStks
  s.clearCache.copyCommands

end Sys2Proof.Machine
end

