-- ==== Sys2Proof/Machine/Noc.lean ====
section
/-!
DEFINITION. The on-die mesh (R367 to R386): routers, routes, slot tables, core ports, STACK lists, collisions and dark
routers.
-/
namespace Sys2Proof.Machine

/-! ### Routes (R371) -/

/-- R371. -/
def rtDX (r : Nat) : Nat := bits r 3 0
def rtDY (r : Nat) : Nat := bits r 6 4
def rtExit (r : Nat) : Nat := bits r 10 7
def rtOrd (r : Nat) : Nat := bits r 11 11
def rtXD (r : Nat) : Bool := bits r 12 12 = 1
def rtMod (r : Nat) : Nat := bits r 16 13
def rtMC (r : Nat) : Bool := bits r 17 17 = 1

/-- R372: whether a unicast ROUTE may be injected. -/
def routeOk (r : Nat) : Bool :=
  rtMC r || (decide (rtDX r ≤ 10) && decide (rtDY r ≤ 5) && decide (rtExit r ≤ 8) &&
    (rtExit r ≠ 8 || hasStackPort (routerAt (rtDX r) (rtDY r))))

/-- Device address of an offset in a router's window (R379). -/
def routerWin (h p off : Nat) : Nat := blockAddr 16 (0x200000 + 0x10000 * (66 * h + p) + off)

/-- R375: a slot table entry. -/
def State.slotEntry (s : State) (h p e : Nat) : Nat := s.nat (routerWin h p (0x800 + 8 * e)) 8

/-- A schedule error of the network. -/
def State.nocErr (s : State) (h addr router port cause : Nat) : State := (s.errNOC h addr router port cause).sched h 16 cause

/-! ### Injection (R372, R375, R376, R380, R383) -/

/-- R153, R155: a flit carries poison by 8-byte granules. -/
def coarse (d : Line) : Line := (List.range (d.length / 8)).flatMap fun g =>
  let x := (d.drop (8 * g)).take 8
  if x.any Option.isNone then List.replicate 8 none else x

/-- A line enters a router. -/
def State.launch (s : State) (h p port phase route : Nat) (l : MLine) (addr : Nat) : State :=
  if !routeOk route then s.nocErr h addr p port 1
  else { s with flights := s.flights ++
    [{ half := h, pos := p, inPort := port, phase := phase, born := s.str.scnt.toNat, route := route, data := { l with data := coarse l.data },
       mc := if rtMC route then 1 else 0 }] }

/-- The inject half of a core's RTR field in one phase. -/
def State.injectPhase (s : State) (n h p e addr phase : Nat) (acts : Bool) : State :=
  let route := if phase = 0 then bits e 17 0 else bits e 35 18
  let port := n % 8
  if s.failed n then
    (if s.fget F.COR_STAT_FCAUSE n = FC.CONTROL then s
     else if acts then s.launch h p port phase route { data := List.replicate 64 none } addr
     else s.launch h p port phase route { data := List.replicate 64 (some 0), null := true } addr)
  else if !acts then s.launch h p port phase route { data := List.replicate 64 (some 0), null := true } addr
  else
    let c := s.core n
    match c.inj with
    | [] => (s.nocErr h addr p port 3).launch h p port phase route { data := List.replicate 64 none } addr
    | l :: q =>
      let l := if c.stepPois then { l with data := List.replicate 64 none } else l
      (s.setCore n { c with inj := q }).launch h p port phase route l addr

/-- The router port of one core: its RTR field's injections; the result tells which phases it ejects. -/
def State.corePort (s : State) (n : Nat) : State × Nat :=
  let c := s.core n
  match c.cur, s.physOf (clusterOf n) with
  | some w, some pi =>
    let h := pi / 66
    let p := pi % 66
    let rop := bits (opRtr w) 11 8
    if s.stall.held.any (fun q => q.1 = n) ∨ s.routerDark pi ∨ rop = 0 then (s, 0)
    else if 4 ≤ rop then (if c.first ∧ !s.failed n then s.schedSTR n 2 else s, 0)
    else
      let sl := bits (opRtr w) 7 0
      let e := s.slotEntry h p sl
      let addr := routerWin h p (0x800 + 8 * sl)
      if bits e 63 40 ≠ 0 then (s.nocErr h addr p (n % 8) 2, 0)
      else
        let iph := bits e 37 36
        let s := if rop % 2 = 1 then
            (List.range 2).foldl (fun s ph => if iph.testBit ph then s.injectPhase n h p e addr ph c.acts else s) s
          else s
        (s, if 2 ≤ rop then bits e 39 38 else 0)
  | _, _ => (s, 0)

/-- R380: the STACK list of a router in a block. -/
def State.stackList (s : State) (h p blk : Nat) : SPort :=
  let x := s.nat (routerWin h p (0x1000 + 4 * blk)) 4
  { pos := bits x 15 0, rest := bits x 31 16, live := true }

/-- One cycle of a STACK port. -/
def State.stackPort (s : State) (h p : Nat) : State :=
  let key := 66 * h + p
  let sp : SPort := smGet {} s.sports key
  if !sp.live ∨ s.routerDark key then s
  else if sp.rest = 0 then
    (if sp.ended then s
     else { s with sports := smPut {} s.sports key { sp with ended := true } }.nocErr h (routerWin h p 0x5000) p 12 7)
  else
    let at_ := routerWin h p (0x5000 + 4 * sp.pos)
    let e := s.nat at_ 4
    let next : SPort := if sp.used < bits e 15 0 then { sp with used := sp.used + 1 }
      else { sp with pos := sp.pos + 1, rest := sp.rest - 1, used := 0 }
    let s := { s with sports := smPut {} s.sports key next }
    if bits e 16 16 = 0 then s
    else
      let sl := bits e 24 17
      let ent := s.slotEntry h p sl
      let addr := routerWin h p (0x800 + 8 * sl)
      if bits ent 63 40 ≠ 0 then s.nocErr h addr p 12 2
      else
        let k := stackOf h (p / 16)
        let q := p % 16 / 2
        (List.range 2).foldl (fun s ph =>
          if !(bits ent 37 36).testBit ph then s
          else
            let route := if ph = 0 then bits ent 17 0 else bits ent 35 18
            match s.egress k q with
            | [] => (s.nocErr h at_ p 12 6).launch h p 12 ph route { data := List.replicate 64 none } addr
            | l :: r => (s.setStk k { s.stkOf k with egr := smPut [] (s.stkOf k).egr q r }).launch h p 12 ph route l addr) s

/-- R316, R380: a STACK list that runs past the end of its block is cut and reported; a dark router runs none. -/
def State.stackCuts (s : State) : State :=
  s.sports.foldl (fun s x =>
    let s := if x.2.live ∧ x.2.rest ≠ 0 ∧ !s.routerDark x.1 then s.nocErr (x.1 / 66) (routerWin (x.1 / 66) (x.1 % 66) 0x5000) (x.1 % 66) 12 7 else s
    { s with sports := smPut {} s.sports x.1 {} }) s

/-- R380: every STACK port starts its list of block `blk`. -/
def State.stackBlock (s : State) (blk : Nat) : State :=
  (List.range 64).foldl (fun s i =>
    let h := i / 32
    let p := 2 * (i % 32)
    let sp := s.stackList h p blk
    if sp.rest = 0 then s else { s with sports := smPut {} s.sports (66 * h + p) sp }) s.stackCuts

/-! ### Hops (R372 to R374, R382, R384) -/

/-- The router a unicast line heads for in its half, and its exit port there. -/
def Flight.target (f : Flight) : Nat × Nat :=
  if rtXD f.route then (moduleRouter f.half (rtMod f.route), modulePort (rtMod f.route))
  else (routerAt (rtDX f.route) (rtDY f.route), if rtExit f.route = 8 then 12 else rtExit f.route)

/-- The outputs a line takes in its router: mesh ports 8 N, 9 E, 10 S, 11 W; an exit port; 32 offers it to the core ports. -/
def Flight.outputs (f : Flight) : List Nat :=
  let x := routerX f.pos
  let y := routerY f.pos
  if f.mc = 0 then
    let (d, e) := f.target
    let cx : List Nat := if routerX d < x then [11] else if x < routerX d then [9] else []
    let cy : List Nat := if routerY d < y then [8] else if y < routerY d then [10] else []
    match if rtOrd f.route = 0 then cx ++ cy else cy ++ cx with
    | o :: _ => [o]
    | [] => [e]
  else
    let up : List Nat := if 0 < y then [8] else []
    let down : List Nat := if y < 5 then [10] else []
    let left : List Nat := if 0 < x then [11] else []
    let right : List Nat := if x < 10 then [9] else []
    let link : List Nat := if rtXD f.route ∧ f.pos = moduleRouter f.half (rtMod f.route) then [modulePort (rtMod f.route)] else []
    let go : List Nat := match f.dir with
      | 8 => up | 10 => down
      | 9 => right ++ up ++ down | 11 => left ++ up ++ down
      | _ => left ++ right ++ up ++ down
    32 :: link ++ go

/-- R382: record a collision. -/
def State.collide (s : State) (h p out phase : Nat) (ins : List Nat) : State :=
  let a := (ins.min?).getD 0
  let b := ((ins.erase a).min?).getD 0
  let s := (s.bump F.NOC_COLCNT_COUNT h 0 1).total 3
  let s := if s.flag F.NOC_COLLOG1_VALID h then s
    else ((s.w1cMark .NOC_COLLOG1 h 0 (2 ^ 32)).rset .NOC_COLLOG0 h 0 s.str.scnt.toNat).rset .NOC_COLLOG1 h 0 (2 ^ 32 + phase * 2 ^ 24 + p * 2 ^ 10 + b * 2 ^ 4 + a)
  (s.errNOC h 0 p out 8).raise .collision (66 * h + p) out phase s.scnt32 h

/-- Among lines that reach one output in one slot, the one that is forwarded; `cap` is 2 for a core port. -/
def State.arbitrate (s : State) (h p out phase cap : Nat) (ls : List (Nat × MLine)) : List MLine × State :=
  if ls.length ≤ cap then (ls.map (·.2), s)
  else
    let lo := ((ls.map (·.1)).min?).getD 0
    match ls.find? fun l => l.1 = lo with
    | some l => ([{ l.2 with data := List.replicate 64 none }], s.collide h p out phase (ls.map (·.1)))
    | none => ([], s)

/-- The outputs that scheduled lines use in one phase of a cycle: of the lines in the routers, and of those that leave by STACK. -/
def State.meshUsed (s : State) (due : List Flight) (phase : Nat) : List Nat :=
  ((s.flights.filter fun f => f.exit.isNone && f.phase = phase).flatMap fun f =>
    (f.outputs.filter fun o => 8 ≤ o ∧ o < 12).map fun o => meshKey f.half f.pos o) ++
  (due.filter fun f => f.exit = some 12 && f.phase = phase).map fun f => meshKey f.half f.pos 12

/-- Every line in a router moves one hop, or enters the deskew stage of its exit port. -/
def State.hops (s : State) : State :=
  let moving := s.flights.filter fun f => f.exit.isNone
  let resting := s.flights.filter fun f => f.exit.isSome
  -- (half, router, output, phase) with the line that takes it
  let wants := moving.flatMap fun f => f.outputs.map fun o => (o, f)
  let exits := (wants.filter fun w => w.1 < 8 ∨ 12 ≤ w.1).map fun w => { w.2 with exit := some w.1 }
  let mesh := wants.filter fun w => 8 ≤ w.1 ∧ w.1 < 12
  let same (u v : Nat × Flight) : Bool := u.1 = v.1 && u.2.half = v.2.half && u.2.pos = v.2.pos && u.2.phase = v.2.phase
  let heads := mesh.foldl (fun acc w => if acc.any (same w) then acc else acc ++ [w]) ([] : List (Nat × Flight))
  let s := { s with flights := resting ++ exits }
  heads.foldl (fun s w =>
    let g := mesh.filter (same w)
    let lo := ((g.map fun x => x.2.inPort).min?).getD 0
    match g.find? fun x => x.2.inPort = lo with
    | none => s
    | some (o, f) =>
      let (ls, s) := s.arbitrate f.half f.pos o f.phase 1 (g.map fun x => (x.2.inPort, x.2.data))
      let (p, i) := meshNext f.pos o
      if s.routerDark (66 * f.half + p) then s.bump F.NOC_DEADCNT_COUNT f.half 0 1
      else
        let f' := { f with pos := p, inPort := i, age := f.age + 1, data := (ls.headD f.data), dir := if f.mc = 0 then 0 else o }
        { s with flights := s.flights ++ [f'] }) s

/-! ### Delivery (R374, R377, R378) -/

/-- The lines that a core's eject lanes take in one phase, in order; `none` where the phase brings nothing. -/
def State.ejectLine (s : State) (n : Nat) (l : MLine) (h p : Nat) : State :=
  let c := s.core n
  if l.null then s
  else if 64 ≤ c.ej.length then s.nocErr h 0 p (n % 8) 4
  else s.setCore n { c with ej := c.ej ++ [l] }

/-- Deliver what is due at SCNT `t` in one phase to one core port; `eph` are the phases it ejects. -/
def State.deliverCore (s : State) (n h p phase eph : Nat) (due : List Flight) : State :=
  let here := due.filter fun f => f.half = h ∧ f.pos = p ∧ f.phase = phase
  let uni := here.filter fun f => f.exit = some (n % 8)
  let multi := here.filter fun f => f.exit = some 32
  if s.failed n then s
  else if eph.testBit phase then
    let ls := insertBy (uni ++ multi)
    let (ls, s) := s.arbitrate h p (n % 8) phase 2 ls
    if ls.isEmpty then (s.bump F.NOC_MISSCNT_COUNT h 0 1).ejectLine n { data := List.replicate 64 none } h p
    else ls.foldl (fun s l => s.ejectLine n l h p) s
  else uni.foldl (fun s _ => s.nocErr h 0 p (n % 8) 5) s
where
  /-- by input port, the lower-numbered first -/
  insertBy (fs : List Flight) : List (Nat × MLine) :=
    (List.range 16).flatMap fun i => (fs.filter fun f => f.inPort = i).map fun f => (i, f.data)

/-- Deliver what is due at a router's STACK port. -/
def State.deliverStack (s : State) (h p phase : Nat) (due : List Flight) : State :=
  let ls := (due.filter fun f => f.half = h ∧ f.pos = p ∧ f.phase = phase ∧ f.exit = some 12).map fun f => (f.inPort, f.data)
  let (ls, s) := s.arbitrate h p 12 phase 1 ls
  ls.foldl (fun s l => s.putIngress (stackOf h (p / 16)) (p % 16 / 2) l) s

/-- The lines of the network that are due at SCNT `t`. -/
def State.dueFlights (s : State) (t : Nat) : List Flight := s.flights.filter fun f => f.exit.isSome && decide (f.born + 17 ≤ t)

end Sys2Proof.Machine
end

