-- ==== Sys2Proof/Machine/Itl.lean ====
section
/-!
DEFINITION. The Ittaing link (R387 to R402): STREAM lines and flits, replay, stall points, lanes, training, widths, fencing
and the link class.
-/
namespace Sys2Proof.Machine

/-! ### State -/

/- The states of ITL_STAT.STATE (R399). -/
namespace LK
abbrev DOWN := 0
abbrev TRAIN := 1
abbrev PROPOSE := 2
abbrev CHECK := 3
abbrev ACTIVE := 4
abbrev FENCED := 5
end LK

def State.itlState (s : State) (m : Nat) : Nat := s.fget F.ITL_STAT_STATE m
def State.itlActive (s : State) (m : Nat) : Bool := s.itlState m = LK.ACTIVE
def State.itlF (s : State) (m d : Nat) : Nat := if d = 0 then s.fget F.ITL_STAT_F0 m else s.fget F.ITL_STAT_F1 m

/-! ### Widths and classes (R401) -/

/-- U of R401. -/
def State.linkUnits (s : State) : Nat := ((List.range 16).map fun m => s.fget F.ITL_STAT_WIDTH m).sum

/-- R401: the class of U units. -/
def linkClassOf (u : Nat) : Nat := (33 - u) / 2

def State.linkClass (s : State) : Nat := linkClassOf s.linkUnits

/-- Flits of a virtual channel that are in flight. -/
def ItlDir.inFlight (x : ItlDir) (v : Nat) : Nat := (x.replay.filter fun f => decide ((f.seq + 4096 - x.rx) % 4096 < 2048) && f.vc = v).length

/-- Credits the sender of STREAM holds (R390, R391). -/
def State.streamCredits (s : State) (m d : Nat) : Nat :=
  let x := s.itlDir m d
  96 - x.inFlight 0 - (x.waiting.filterMap (·.flit)).eraseDups.length

/-- Credits the senders of DMA and CONTROL hold (R390, R391). -/
def State.vcCredits (s : State) (m d v : Nat) : Nat :=
  let x := s.itlDir m d
  if v = 1 then 32 - x.inFlight 1 - (x.buf.filter (·.1)).length else 16 - x.inFlight v

/-! ### Requests -/

/-- Units of STALLSRC bit 0: 2m + d for a receiver, 32 + 2m + d for a sender. -/
def State.itlRequest (s : State) (m d : Nat) (sender : Bool) : State :=
  let half := if sender then d else 1 - d
  let unit := (if sender then 32 else 0) + 2 * m + d
  let known := s.stall.reqs.any fun r => r.src = 0 && r.unit = unit && r.released = none
  if known then s else (s.request 0 half unit).bump F.ITL_STALLCNT_COUNT m 0 1

/-- R393, R394: whether the source of a request of bit 0 is served. -/
def State.itlServed (s : State) (unit : Nat) : Bool :=
  if unit < 32 then !((s.itlDir (unit / 2) (unit % 2)).missing.any fun p => p.2.2)
  else
    let m := unit % 32 / 2
    let d := unit % 2
    (List.range 16).all fun i =>
      let x := s.itlDir i d
      !(x.q.any fun l => l.late && l.mod = m) && !(x.replay.any fun f => f.lines.any fun l => l.late && l.mod = m) &&
        !(x.vq.any fun l => l.late && l.mod = m) && !(x.replay.any fun f => f.vls.any fun l => l.late && l.mod = m)

/-- R394: lines of a sender that are late, or whose module left ACTIVE: marked and requested. -/
def State.markLate (s : State) (m d : Nat) (all : Bool) : State :=
  let x := s.itlDir m d
  let hit (l : ItlLine) : Bool := all || decide (l.tL + 16 ≤ s.nowS)
  let hitV (l : VLine) : Bool := l.timed && all || s.vLate l
  let mods := ((x.q.filter hit).map (·.mod) ++ (x.vq.filter hitV).map (·.mod) ++
    (if all then x.replay.flatMap fun f => f.lines.map (·.mod) ++ (f.vls.filter hitV).map (·.mod) else [])).eraseDups
  let mark (l : ItlLine) : ItlLine := if hit l then { l with late := true } else l
  let markV (l : VLine) : VLine := if hitV l then { l with late := true } else l
  let x := { x with q := x.q.map mark, vq := x.vq.map markV,
                    replay := if all then x.replay.map fun f => { f with lines := f.lines.map mark, vls := f.vls.map markV } else x.replay }
  mods.foldl (fun s i => s.itlRequest i d true) (s.setDir m d x)

/-! ### Lines into and out of the link (R392) -/

/-- A line reaches its LINK exit at the present SCNT. -/
def State.enterLink (s : State) (f : Flight) (data : MLine) : State :=
  let m := rtMod f.route
  let d := f.half
  let c := s.carrier m
  let x := s.itlDir c d
  let pos := (x.q.filter fun l => l.mod = m ∧ l.tL = s.nowS).length
  let l : ItlLine := { tL := s.nowS, phase := f.phase, mod := m, pos := pos, route := setBits f.route 12 12 0, data := data }
  s.setDir c d { x with q := x.q ++ [l] }

/-- Deliver what is due at the LINK ports (R374, R382). -/
def State.deliverLink (s : State) (due : List Flight) : State :=
  let ls := due.filter fun f => f.exit = some 13 ∨ f.exit = some 14
  let same (a b : Flight) : Bool := a.half = b.half && a.pos = b.pos && a.phase = b.phase && a.exit = b.exit
  let heads := ls.foldl (fun acc f => if acc.any (same f) then acc else acc ++ [f]) ([] : List Flight)
  heads.foldl (fun s f =>
    let g := ls.filter (same f)
    let (out, s) := s.arbitrate f.half f.pos ((f.exit).getD 13) f.phase 1 (g.map fun x => (x.inPort, x.data))
    let lo := ((g.map (·.inPort)).min?).getD 0
    match g.find? (fun x => x.inPort = lo), out with
    | some w, l :: _ => s.enterLink w l
    | _, _ => s) s

/-- R392: the lines whose DUE is `t` enter the other half's link-row routers. -/
def State.linesDue (s : State) (m d t : Nat) : State :=
  let x := s.itlDir m d
  let ls := x.waiting.filter fun l => l.tL + 64 = t
  if ls.isEmpty then s
  else
    let h := 1 - d
    let s := s.setDir m d { x with waiting := x.waiting.filter fun l => l.tL + 64 ≠ t }
    ls.foldl (fun s l =>
      let p := moduleRouter h l.mod
      if s.routerDark (66 * h + p) then s.bump F.NOC_DEADCNT_COUNT h 0 1
      else { s with flights := s.flights ++
        [{ half := h, pos := p, inPort := modulePort l.mod, phase := l.phase, born := t, route := l.route, data := l.data,
           mc := if rtMC l.route then 1 else 0 }] }) s

/-! ### States (R397 to R400) -/

/-- R400: substitutes of fenced modules, and the lines that they take over: the substitute sends them anew, so nothing of theirs is missing
at the fenced module, whose sequence numbers agree again. -/
def State.resubst (s : State) : State :=
  (List.range 16).foldl (fun s m =>
    if s.itlState m ≠ LK.FENCED then (s.fset F.ITL_STAT_SUBV m 0 0).fset F.ITL_STAT_SUBST m 0 0
    else
      let order := [m ^^^ 1, m ^^^ 2, m ^^^ 3] ++ (List.range 16).filter fun i => i ≠ m && i ≠ m ^^^ 1 && i ≠ m ^^^ 2 && i ≠ m ^^^ 3
      match order.find? fun i => s.itlActive i with
      | none => (s.fset F.ITL_STAT_SUBV m 0 0).fset F.ITL_STAT_SUBST m 0 0
      | some c =>
        let s := (s.fset F.ITL_STAT_SUBV m 0 1).fset F.ITL_STAT_SUBST m 0 c
        (List.range 2).foldl (fun s d =>
          let x := s.itlDir m d
          let y := s.itlDir c d
          let s := s.setDir m d { x with q := [], vq := [], replay := [], again := none, wire := [], took := [], rx := x.nextSeq, missing := [] }
          s.setDir c d { y with q := (x.replay.flatMap (·.lines)) ++ x.q ++ y.q, vq := (x.replay.flatMap (·.vls)) ++ x.vq ++ y.vq }) s) s

/-- R401: after a change of width or fencing. -/
def State.classEvent (s : State) : State := s.resubst.raise .itlClass 0 0 0 s.resubst.linkClass

/-- R394: a module leaves ACTIVE. Flits on the wire are lost; the sender's lines that are not acknowledged raise requests. -/
def State.leaveActive (s : State) (m : Nat) : State :=
  (List.range 2).foldl (fun s d =>
    let x := s.itlDir m d
    let s := s.setDir m d { x with wire := [], again := (x.replay.head?).map fun f => (f.seq, s.cc) }
    if x.q.isEmpty ∧ x.replay.isEmpty ∧ x.vq.isEmpty then s else s.markLate m d true) s

/-- R399: a module enters TRAIN with the attempt count at 0. -/
def State.trainModule (s : State) (m : Nat) : State :=
  let s := if s.itlActive m then s.leaveActive m else s
  let was := s.itlState m
  let s := (s.fset F.ITL_STAT_STATE m 0 LK.TRAIN).fset F.ITL_STAT_ATTEMPT m 0 0
  let s := s.setItl m { s.itlOf m with chk := [], fast := none, since := s.cc }
  if was = LK.FENCED then s.classEvent else s.resubst

/-- R398: a full retrain begins. -/
def State.fullRetrain (s : State) (m : Nat) : State := (s.trainModule m).bump F.ITL_RETRAINCNT_FULL m 0 1

/-- R399, R400: a module is fenced. -/
def State.fence (s : State) (m : Nat) : State :=
  let s := if s.itlActive m then s.leaveActive m else s
  let s := (s.fset F.ITL_STAT_STATE m 0 LK.FENCED).fset F.ITL_STAT_WIDTH m 0 0
  (s.setItl m { s.itlOf m with chk := [], fast := none }).classEvent.raise .itlFence m

/-- R399: an attempt fails. -/
def State.attemptFails (s : State) (m : Nat) : State :=
  let a := s.fget F.ITL_STAT_ATTEMPT m + 1
  let s := s.fset F.ITL_STAT_ATTEMPT m 0 a
  if 3 ≤ a then s.fence m
  else (s.fset F.ITL_STAT_STATE m 0 LK.TRAIN).setItl m { s.itlOf m with chk := [], since := s.cc }

/-- R391: a retrain returns every channel to its initial credits: what the receiver still holds no longer counts. -/
def ItlDir.freeCredits (x : ItlDir) : ItlDir :=
  { x with waiting := x.waiting.map fun l => { l with flit := none }, buf := x.buf.map fun p => (false, p.2) }

/-- R399: both widths matched. -/
def State.becomeActive (s : State) (m : Nat) : State :=
  let w := (s.itlOf m).prop
  let changed := decide (s.fget F.ITL_STAT_WIDTH m ≠ w)
  let s := (s.fset F.ITL_STAT_STATE m 0 LK.ACTIVE).fset F.ITL_STAT_WIDTH m 0 w
  let s := s.setItl m { s.itlOf m with chk := [], dirs := (s.itlOf m).dirs.map fun y => (y.1, y.2.freeCredits) }
  let s := if w = 1 then s.raise .itlHalf m else s
  if changed then s.classEvent else s.resubst

/-- Lanes of a direction that have failed: data lanes 0 to 63, spares 64 to 67. -/
def State.laneFailed (s : State) (m d l : Nat) : Bool :=
  if l < 64 then (if d = 0 then s.fget F.ITL_FLANE0_FAILED m else s.fget F.ITL_FLANE1_FAILED m).testBit l
  else (if d = 0 then s.fget F.ITL_FSPARE_SPARE0 m else s.fget F.ITL_FSPARE_SPARE1 m).testBit (l - 64)

def State.goodLanes (s : State) (m d : Nat) : Nat := ((List.range 68).filter fun l => !s.laneFailed m d l).length

def State.setLaneFailed (s : State) (m d l : Nat) : State :=
  if s.laneFailed m d l then s
  else if l < 64 then
    (if d = 0 then s.fset F.ITL_FLANE0_FAILED m 0 (s.fget F.ITL_FLANE0_FAILED m + 2 ^ l)
     else s.fset F.ITL_FLANE1_FAILED m 0 (s.fget F.ITL_FLANE1_FAILED m + 2 ^ l))
  else
    (if d = 0 then s.fset F.ITL_FSPARE_SPARE0 m 0 (s.fget F.ITL_FSPARE_SPARE0 m + 2 ^ (l - 64))
     else s.fset F.ITL_FSPARE_SPARE1 m 0 (s.fget F.ITL_FSPARE_SPARE1 m + 2 ^ (l - 64)))

def State.setSpused (s : State) (m d n : Nat) : State :=
  if d = 0 then s.fset F.ITL_STAT_SPUSED0 m 0 n else s.fset F.ITL_STAT_SPUSED1 m 0 n

/-- R397: a lane fails: a free spare replaces it in a fast retrain, or the module retrains fully. -/
def State.laneFails (s : State) (m d l : Nat) : State :=
  if s.laneFailed m d l then s
  else
    let s := s.setLaneFailed m d l
    let x := s.itlDir m d
    let used := x.spares.map (·.1)
    let inUse := l < 64 ∨ used.contains (l - 64)
    match (List.range 4).find? fun i => !s.laneFailed m d (64 + i) && !used.contains i with
    | some i =>
      if !inUse then s
      else
        let lane := ((x.spares.find? fun p => p.1 + 64 = l).map (·.2)).getD l
        let s := s.setDir m d { x with spares := (i, lane) :: x.spares.filter fun p => p.1 + 64 ≠ l }
        let s := ((s.leaveActive m).fset F.ITL_STAT_STATE m 0 LK.TRAIN).bump F.ITL_RETRAINCNT_FAST m 0 1
        let s := (s.setItl m { s.itlOf m with fast := some (d, l), since := s.cc }).resubst
        s.raise .itlSpare m d 0 l d
    | none => if inUse then s.fullRetrain m else s

/-! ### Flits (R389, R392 to R396) -/

/-- R389: the descriptor of a STREAM line: DUE, POIS by granules of 8 bytes, NULL and ROUTE. -/
def ItlLine.desc (l : ItlLine) : Nat :=
  let pois := ((List.range 8).map fun g => if ((l.data.data.drop (8 * g)).take 8).any Option.isNone then 2 ^ g else 0).sum
  (l.tL + 64) % 2 ^ 16 + pois * 2 ^ 16 + (if l.data.null then 2 ^ 24 else 0) + l.route % 2 ^ 18 * 2 ^ 32

/-- The lines of a flit with their descriptors. -/
def Flit.body (y : Flit) : List (Line × Nat) :=
  if y.vc = 0 then y.lines.map fun l => (l.data.data, l.desc) else y.vls.map fun l => (l.line, l.desc)

/-- R389: the 256 bytes of a DATA flit, with the latest acknowledgement of the other direction, whether it is a NAK, and the credits returned.
The bits of a poisoned byte are not carried (R159): they stand as 0. -/
def Flit.bytes (y : Flit) (ackSeq : Option Nat) (nak : Bool) (cred : Nat) : List Byte :=
  let b := y.body
  let pad (n : Nat) (l : List Byte) : List Byte := l ++ List.replicate (n - l.length) 0
  let head := leBytes 1 (1 + y.vc * 4 + b.length * 16) ++ leBytes 1 ((if ackSeq.isSome then 1 else 0) + (if nak then 2 else 0)) ++
    leBytes 2 (y.seq % 4096) ++ leBytes 2 (ackSeq.getD 0 % 4096) ++ leBytes 2 (cred % 256)
  let all := pad 248 (pad 208 (pad 16 head ++ b.flatMap fun p => p.1.map fun x => x.getD 0) ++ b.flatMap fun p => leBytes 8 p.2)
  all ++ leBytes 8 (crc64 all)


/-- Acknowledgements that have reached the sender: a flit taken F cc ago is acknowledged. -/
def State.acks (s : State) (m d : Nat) : State :=
  let x := s.itlDir m d
  let known := (x.took.filter fun p => p.1 + s.itlF m (1 - d) ≤ s.cc).map (·.2)
  let rep := x.replay.filter fun f => !known.contains f.seq
  let again := match x.again with
    | some (n, t) => if known.contains n then (rep.head?).map fun f => (f.seq, t) else some (n, t)
    | none => none
  s.setDir m d { x with replay := rep, took := x.took.filter (fun p => !known.contains p.2), again := again }

/-- R390: the virtual channel whose flit goes next: STREAM with three lines or a line that has waited 2 cc, then CONTROL, then DMA, each if it has
a credit. -/
def State.nextVc (s : State) (m d : Nat) : Option Nat :=
  let x := s.itlDir m d
  if decide (0 < s.streamCredits m d) &&
      (decide (3 ≤ x.q.length) || match x.q with
        | l :: _ => decide (l.tL + 2 ≤ s.nowS)
        | [] => false) then some 0
  else [2, 1].find? fun v => decide (0 < s.vcCredits m d v) && x.vq.any fun l => l.vc = v

/-- R387: the time of a flit in 1/125 of a CCLK cycle: 0.8 ns, at half width 1.6 ns. -/
def State.flitTime (s : State) (m : Nat) : Nat := if s.fget F.ITL_STAT_WIDTH m = 1 then 192 else 96

/-- The end of a flit of `w` whose launch falls in real cycle `cc`: after the flits before it. -/
def ItlDir.busyTo (x : ItlDir) (cc w : Nat) : Nat := max x.busy (125 * cc) + w

/-- Whether a sender has something to launch, in a flit time that begins in the present cycle (R390): a replay that it knows of, or a flit of a
virtual channel. -/
def State.canLaunch (s : State) (m d : Nat) : Bool :=
  let x := s.itlDir m d
  s.itlActive m && decide (x.busy < 125 * (s.cc + 1)) && match x.again with
    | some (_, t) => decide (t ≤ s.cc)
    | none =>
      decide (x.replay.length < 64) && (s.nextVc m d).isSome

/-- R392, R396: launch one flit. -/
def State.launchFlit (s : State) (m d : Nat) : State :=
  let s := s.acks m d
  let x := s.itlDir m d
  let f := s.itlF m d
  match x.again with
  | some (n, t) =>
    match x.replay.find? fun y => y.seq = n with
    | none => s.setDir m d { x with again := none }
    | some y =>
      let first := x.replay.head?.map (·.seq) = some n
      let s := if first then s.bump F.ITL_REPLAYCNT_COUNT m 0 1 else s
      if 8 ≤ y.tries + 1 then s.fullRetrain m
      else
        let nxt := (x.replay.dropWhile fun z => z.seq ≠ n).drop 1
        let rep := x.replay.map fun z => if z.seq = n then { z with tries := z.tries + 1, at_ := s.cc } else z
        s.setDir m d { x with again := (nxt.head?).map fun z => (z.seq, t), replay := rep, wire := x.wire ++ [(s.cc + f, n)],
                              busy := x.busyTo s.cc (s.flitTime m) }
  | none =>
    let v := (s.nextVc m d).getD 0
    let y : Flit := if v = 0 then { seq := x.nextSeq, lines := x.q.take 3, at_ := s.cc }
      else { seq := x.nextSeq, lines := [], at_ := s.cc, vc := v, vls := (x.vq.filter fun l => l.vc = v).take 3 }
    s.setDir m d { x with q := if v = 0 then x.q.drop 3 else x.q,
                          vq := if v = 0 then x.vq else (x.vq.filter fun l => l.vc ≠ v) ++ (x.vq.filter fun l => l.vc = v).drop 3,
                          replay := x.replay ++ [y], nextSeq := (x.nextSeq + 1) % 4096, wire := x.wire ++ [(s.cc + f, x.nextSeq)],
                          busy := x.busyTo s.cc (s.flitTime m) }

/-- Whether the next flit on the wire has arrived. -/
def State.flitArrives (s : State) (m d : Nat) : Bool :=
  match (s.itlDir m d).wire with
  | (a, _) :: _ => decide (a ≤ s.cc)
  | [] => false

/-- R395, R396: lines of flit `n` taken in sequence. -/
def State.takeLines (s : State) (m d n : Nat) (ls : List ItlLine) : State :=
  ls.foldl (fun s l =>
    let x := s.itlDir m d
    let key := (l.mod, l.tL, l.phase, l.pos)
    if (List.range 16).any fun i => (s.itlDir i d).seen.contains key then s
    else
      let s := s.setDir m d { x with seen := (key :: x.seen).take 256 }
      if l.tL + 64 < s.nowS then (s.bump F.ITL_LATECNT_COUNT 0 0 1).raise .itlLate l.mod 0 0 ((l.tL + 64) % 65536) (1 - d)
      else s.setDir m d { s.itlDir m d with waiting := (s.itlDir m d).waiting ++ [{ l with flit := some n }] }) s

/-- A flit of CONTROL is taken at once, one of DMA as the mesh has room. -/
def State.takeOther (s : State) (m d : Nat) (y : Flit) : State :=
  if y.vc = 0 then s
  else if y.vc = 1 then
    let x := s.itlDir m d
    ((s.setDir m d { x with buf := x.buf ++ [(true, y.vls)] }).drainBuf m d).serveAll.finishReads
  else y.vls.foldl (fun s l => s.takeV d l) s

/-- R396: a DATA flit reaches the receiver, corrupt or intact. -/
def State.takeFlit (s : State) (m d : Nat) (corrupt : Bool) : State :=
  let x := s.itlDir m d
  match x.wire with
  | [] => s
  | (_, n) :: w =>
    let miss := if x.missing.any (fun p => p.1 = n) then x.missing else x.missing ++ [(n, s.nowS, false)]
    if corrupt then
      let again := if n = x.rx then some (n, s.cc + s.itlF m (1 - d)) else x.again
      let s := s.setDir m d { x with wire := w, missing := miss, again := again }
      if d = 0 then s.bump F.ITL_CRCCNT_DIR0 m 0 1 else s.bump F.ITL_CRCCNT_DIR1 m 0 1
    else if n = x.rx then
      let y := (x.replay.find? fun y => y.seq = n).getD { seq := n, lines := [], at_ := 0 }
      let s := (s.setDir m d { x with wire := w, rx := (n + 1) % 4096, took := x.took ++ [(s.cc, n)],
                                      missing := x.missing.filter fun p => p.1 ≠ n }).takeLines m d n y.lines
      s.takeOther m d y
    else
      -- behind a corrupt flit, or already taken
      s.setDir m d { x with wire := w, missing := if (n + 4096 - x.rx) % 4096 < 2048 then miss else x.missing }

/-- R393: whether a missing flit has reached its request point. -/
def State.stallPoint (s : State) (m d : Nat) : Bool :=
  (s.itlDir m d).missing.any fun p => !p.2.2 && decide (p.2.1 + 37 ≤ s.nowS + s.itlF m d)

def State.raiseStallPoint (s : State) (m d : Nat) : State :=
  let x := s.itlDir m d
  let hit (p : Nat × Nat × Bool) : Bool := decide (p.2.1 + 37 ≤ s.nowS + s.itlF m d)
  (s.setDir m d { x with missing := x.missing.map fun p => (p.1, p.2.1, p.2.2 || hit p) }).itlRequest m d false

/-- R394: whether a line has not been launched in time. -/
def State.isLate (s : State) (m d : Nat) : Bool := ((s.itlDir m d).q.any fun l => !l.late && decide (l.tL + 16 ≤ s.nowS)) ||
  (s.itlDir m d).vq.any fun l => !l.late && s.vLate l

/-- R396: whether the oldest flit has had no acknowledgement for 1.2 µs. -/
def State.replayDue (s : State) (m d : Nat) : Bool :=
  let x := (s.acks m d).itlDir m d
  s.itlActive m && x.again.isNone && match x.replay with
    | f :: _ => decide (f.at_ + 1152 ≤ s.cc)
    | [] => false

def State.replayFrom (s : State) (m d : Nat) : State :=
  let s := s.acks m d
  let x := s.itlDir m d
  s.setDir m d { x with again := (x.replay.head?).map fun f => (f.seq, s.cc) }

/-- R397: an IDLE flit is checked: the lanes on which it shows bit errors. -/
def State.idleFlit (s : State) (m d : Nat) (bad : List Nat) : State :=
  let x := s.itlDir m d
  let errs := (x.errs.filter fun p => decide (x.idles < p.2 + 2 ^ 20)) ++ bad.map fun l => (l, x.idles)
  let fails := (List.range 68).filter fun l => decide (16 ≤ (errs.filter fun p => p.1 = l).length)
  let s := s.setDir m d { x with idles := x.idles + 1, errs := errs.filter fun p => !fails.contains p.1 }
  fails.foldl (fun s l => s.laneFails m d l) s

/-- R399: training is done: the lanes that failed it, and F of each direction. -/
def State.trainDone (s : State) (m fail0 fail1 f0 f1 : Nat) : State :=
  let s := (List.range 68).foldl (fun s l =>
    let s := if fail0.testBit l then s.setLaneFailed m 0 l else s
    if fail1.testBit l then s.setLaneFailed m 1 l else s) s
  let s := (s.fset F.ITL_STAT_F0 m 0 f0).fset F.ITL_STAT_F1 m 0 f1
  let half (d f : Nat) : Nat := let g := s.goodLanes m d
    if 64 ≤ g ∧ f ≤ 10 then 2 else if 32 ≤ g ∧ f ≤ 10 then 1 else 0
  let w := min (half 0 f0) (half 1 f1)
  let s := (List.range 2).foldl (fun s d =>
    let bad := (List.range 64).filter fun l => s.laneFailed m d l
    let sp := (List.range 4).filter fun i => !s.laneFailed m d (64 + i)
    let x := s.itlDir m d
    let pairs := List.zip sp bad
    (s.setDir m d { x with spares := pairs, errs := [], idles := 0 }).setSpused m d pairs.length) s
  if w = 0 then s.fence m
  else (s.fset F.ITL_STAT_STATE m 0 LK.CHECK).setItl m { s.itlOf m with prop := w, chk := [] }

/-- R399: a WIDTHCHK flit of a direction in CHECK. -/
def State.widthCheck (s : State) (m d code : Nat) : State :=
  let x := s.itlOf m
  if code ≠ x.prop then s.attemptFails m
  else
    let chk := if x.chk.contains d then x.chk else d :: x.chk
    let s := s.setItl m { x with chk := chk }
    if chk.length = 2 then s.becomeActive m else s

/-- R397: a fast retrain ends. -/
def State.fastDone (s : State) (m : Nat) : State :=
  match (s.itlOf m).fast with
  | none => s
  | some (d, _) =>
    let s := (s.fset F.ITL_STAT_STATE m 0 LK.ACTIVE).setSpused m d (s.itlDir m d).spares.length
    (s.setItl m { s.itlOf m with fast := none, dirs := (s.itlOf m).dirs.map fun y => (y.1, y.2.freeCredits) }).resubst

end Sys2Proof.Machine
end

