-- ==== Sys2Proof/Machine/Cicada.lean ====
section
/-!
DEFINITION. The Cicada pair (chapter 12): pair states, frames out, heartbeats, hashes, journal capture and application. What
needs the stream controllers is in `Pair.lean`.
-/
namespace Sys2Proof.Machine

/- Pair states of CIC_STAT.PSTATE. -/
namespace PS
abbrev OFF := 0
abbrev SEEKING := 1
abbrev LINKED := 2
abbrev PEER_LOST := 3
abbrev BROKEN := 4
end PS

/- BCAUSE. -/
namespace BC
abbrev CONFIG := 1
abbrev BEHIND := 2
abbrev BACKLOG := 3
abbrev GAP := 4
abbrev RETURN := 5
abbrev JBUF := 6
end BC

def State.pst (s : State) : Nat := s.fget F.CIC_STAT_PSTATE
def State.cmode (s : State) : Nat := s.fget F.CIC_STAT_MODE
def State.standby (s : State) : Bool := s.flag F.CIC_STAT_ROLE
def State.setCic (s : State) (c : Cic) : State := { s with cic := c }

/-- Ports that carry Cicada frames. -/
def State.cicPorts (s : State) : Nat := s.fget F.CIC_STAT_P6UP + s.fget F.CIC_STAT_P7UP

/-- Whether the path works: a direct port in service, or the relay queue pair connected. -/
def State.pathUp (s : State) : Bool :=
  if s.flag F.CIC_STAT_PATH then s.fget F.ECP_QPSTAT_STATE (s.fget F.CIC_CFG_RELAYQP) = 2 else decide (0 < s.cicPorts)

/-! ### Frames out (R445 to R449) -/

/-- The 256 bytes of a frame, with the acknowledgement of the direct path. -/
def State.frameBytes (s : State) (f : Frame) : List Byte :=
  let (ackv, ack) := match s.cic.rxSeq with
    | some x => (1, (x + 2 ^ 32 - 1) % 2 ^ 32)
    | none => (0, 0)
  let b := leBytes 1 f.type ++ leBytes 1 (ackv + if s.cic.nak then 2 else 0) ++ leBytes 2 f.payload.length ++ leBytes 4 f.seq ++ leBytes 4 ack ++ leBytes 4 0 ++
    leBytes 8 f.step ++ (f.payload ++ List.replicate (224 - f.payload.length) 0).take 224
  b ++ leBytes 8 (crc64 b)

/-- Put a frame on the path. On the network path it is a SEND of the relay queue pair; on the direct path it stays until it is
acknowledged. A heartbeat has SEQ 0 and goes on every port in service. -/
def State.emit (s : State) (f : Frame) : State :=
  if !s.pathUp then s
  else
    let n := if f.type ≤ 2 ∧ !s.flag F.CIC_STAT_PATH then s.cicPorts else 1
    let s := s.bump F.CIC_FRMCNT_TX 0 0 n
    if s.flag F.CIC_STAT_PATH then s.send (s.fget F.CIC_CFG_RELAYQP) { kind := 0x30, body := s.frameBytes f }
    else if f.type = 1 then s
    else s.setCic { s.cic with sent := s.cic.sent ++ [f] }

/-- Frames of the pair buffer's queue go out while fewer than 1,024 are unacknowledged (R448). -/
def State.pump : Nat → State → State
  | 0, s => s
  | fuel + 1, s =>
    match s.cic.outq with
    | [] => s
    | f :: q =>
      if 1024 ≤ s.cic.sent.length ∨ !s.pathUp then s
      else
        let f := { f with seq := s.cic.txSeq }
        State.pump fuel ((s.setCic { s.cic with outq := q, txSeq := (s.cic.txSeq + 1) % 2 ^ 32 }).emit f)

/-- Whether hashes and records flow: in PEER_LOST and BROKEN none does (R444, R459). -/
def State.pairFlows (s : State) : Bool := s.fget F.CIC_STAT_PSTATE = PS.SEEKING || s.fget F.CIC_STAT_PSTATE = PS.LINKED

/-- Queue a frame in the order of R447 and send what can go. -/
def State.sendFrame (s : State) (type step : Nat) (payload : List Byte) : State :=
  if type = 1 then s.emit { type := 1, step := step, payload := payload }
  else if 3 ≤ type ∧ !s.pairFlows then s
  else
    let cls (t : Nat) : Nat := if t = 2 then 0 else if t = 3 then 1 else if t ≤ 5 then 2 else 3
    let f : Frame := { type := type, step := step, payload := payload }
    let q := s.cic.outq
    let q := (q.filter fun x => cls x.type ≤ cls type) ++ [f] ++ q.filter fun x => cls type < cls x.type
    let s := s.setCic { s.cic with outq := q }
    State.pump q.length s

/-! ### Pair states (R444) -/

/-- LCAUSE of each NOTICE cause (R446, CIC_STAT). -/
def lcauseOf (notice : Nat) : Nat := notice + 1

/-- Queued hashes and records are discarded; a queued NOTICE stays. -/
def State.dropRecords (s : State) : State := s.setCic { s.cic with outq := s.cic.outq.filter fun f => decide (f.type ≤ 2) }

/-- Entry into PEER_LOST: an active device discards its queued records, a JOURNAL standby its unfinished step (R467). -/
def State.peerLost (s : State) (lcause : Nat) : State :=
  let s := (s.fset F.CIC_STAT_PSTATE 0 0 PS.PEER_LOST).fset F.CIC_STAT_LCAUSE 0 0 lcause
  let s := s.bump F.CIC_HBCNT_LOST 0 0 1
  let s := (s.setCic { s.cic with stage := {} }).dropRecords
  s.raise .peerLost 0 0 lcause 0 1

/-- Entry into BROKEN. -/
def State.pairBreaks (s : State) (cause : Nat) : State :=
  if s.pst = PS.BROKEN then s
  else (((s.fset F.CIC_STAT_PSTATE 0 0 PS.BROKEN).fset F.CIC_STAT_BCAUSE 0 0 cause).raise .pairBroken 0 0 cause 0 1).dropRecords

/-- A NOTICE on every working path (R453). -/
def State.notice (s : State) (cause : Nat) : State :=
  if s.pst = PS.OFF then s else s.sendFrame 2 (s.rget .STR_STEP) (leBytes 1 cause)

/-- The state becomes OFF; P6 and P7 return to Ethernet mode (R442). -/
def State.pairOff (s : State) : State :=
  let s := s.notice 4
  let s := (s.fset F.CIC_STAT_PSTATE 0 0 PS.OFF).fset F.CIC_STAT_SYNCED 0 0 0
  let s := [6, 7].foldl (fun s p => if s.flag F.ETH_STAT_MODE p then
    ((s.fset F.ETH_STAT_MODE p 0 0).fset F.ETH_STAT_LINK p 0 0).fset F.ETH_STAT_RATE p 0 0 else s) s
  let s := (s.fset F.CIC_STAT_P6UP 0 0 0).fset F.CIC_STAT_P7UP 0 0 0
  s.setCic { s.cic with outq := [], recs := [], part := [], stage := {}, copied := none, copyDone := false }

/-- R443: the completion body of PAIR_MODE. -/
def State.pairBody (s : State) : List Byte :=
  leBytes 1 s.pst ++ leBytes 1 (s.fget F.CIC_STAT_LCAUSE + 16 * s.fget F.CIC_STAT_BCAUSE) ++ leBytes 6 0 ++ leBytes 8 (s.rget .CIC_PEERSTEP)

/-- A reset of the device: pair state OFF and CIC_STAT cleared; the mirror list stays (R444, R468). -/
def State.pairReset (s : State) : State :=
  let s := (s.notice 3).pairOff
  { s.rclear .CIC_STAT with cic := {} }

/-! ### Heartbeats (R450 to R454) -/

/-- The step that the device is in, in the active device's numbering (R450, R458). -/
def State.pairStep (s : State) : Nat :=
  if s.standby then (s.rget .CIC_APPLIED + 1 + s.rget .STR_STEP) % 2 ^ 64 else s.rget .STR_STEP

/-- STR_STATE.STATE as it reads (R113). -/
def State.strState (s : State) : Nat :=
  match s.str.st with
  | .idle => 0 | .loaded => 1 | .running => 2 | .stalled => 2 | .trapped => 4 | .halted => 5 | .faulted => 6

/-- SYS_CHMAPDIG: CRC-64 of 4,352 bytes, 1 for an ONLINE channel (R557). -/
def State.chmapDigest (s : State) : Nat :=
  crc64 ((List.range 4352).map fun j => if s.chState (chanOfNum j) = CH.ONLINE then (1 : Byte) else 0)

/-- R450: the payload of a heartbeat. -/
def State.heartbeat (s : State) : List Byte :=
  leBytes 8 (s.rget .LIC_UID) ++
  leBytes 1 (s.fget F.CIC_STAT_ROLE + 2 * s.cmode + 8 * s.fget F.CIC_STAT_PATH + 16 * s.pst) ++ leBytes 1 s.strState ++
  leBytes 2 (s.fget F.CIC_STAT_LCAUSE + 16 * s.fget F.CIC_STAT_BCAUSE) ++ leBytes 4 0 ++ leBytes 8 (s.rget .STR_IMAGE) ++
  leBytes 8 s.chmapDigest ++ leBytes 8 (s.rget .CIC_LASTIN) ++ leBytes 8 (s.rget .CIC_HASHSTEP) ++ leBytes 8 (s.rget .CIC_APPLIED) ++
  List.replicate 168 0

/-- R452: the time of the next miss after the last good heartbeat, in CCLK cycles. -/
def missAt (misses : Nat) : Nat := if misses < 4 then 8160 + 7680 * misses else 38400

/-- R452: one miss; the one at 40 µs loses the peer. -/
def State.heartbeatMiss (s : State) : State :=
  if s.cic.misses < 4 then (s.bump F.CIC_HBCNT_MISSED 0 0 1).setCic { s.cic with misses := s.cic.misses + 1 }
  else s.peerLost 1

/-! ### Journal of an active device (R461) -/

/-- Line records in JLINE or SYNC frames, three to a frame. -/
def State.sendLines (s : State) (type step : Nat) : Nat → List (Nat × Line) → State
  | 0, _ => s
  | _, [] => s
  | fuel + 1, ls =>
    let three := ls.take 3
    let (data, s) := s.reveal (three.flatMap fun p => (leBytes 8 p.1).map some ++ p.2)
    let pad := data ++ List.replicate (216 - data.length) 0
    let pois := three.map fun p => BitVec.ofNat 8 ((List.range 8).foldl (fun m g =>
      if ((p.2.drop (8 * g)).take 8).any (·.isNone) then m + 2 ^ g else m) 0)
    let s := if 131072 ≤ s.cic.outq.length then s.pairBreaks BC.BACKLOG
      else s.sendFrame type step (pad ++ pois ++ List.replicate (3 - pois.length) 0)
    let s := if type = 6 then s.setCic { s.cic with jframes := s.cic.jframes + 1 } else s
    s.sendLines type step fuel (ls.drop 3)

/-- A line as the pair engine copies it. -/
def State.journalLine (s : State) (a : Nat) : Line :=
  match placeOf a with
  | .scratch n off => s.peekScratch n (off / 64 * 64) 64
  | .reg _ _ => (s.bytes a 64).map some
  | p => match p.chan with
    | some (c, off) =>
      let w := (c.base + off) / 32
      let f (w : Nat) : Line := let d := (s.decodeWord c.nc w (s.erasures c)).1
        match (s.chan c).entry w with
        | some e => mergeOver d e
        | none => d
      f (w / 2 * 2) ++ f (w / 2 * 2 + 1)
    | none => List.replicate 64 none

/-- Lines that the pair engine reads from memory: reads as any others (R202); uncorrectable ones of the base copy are logged. -/
def State.copyLines (s : State) (base : Bool) (as : List Nat) : List (Nat × Line) × State :=
  as.foldl (fun (p : List (Nat × Line) × State) a =>
    let (d, st, s) := p.2.hostRead a
    (p.1 ++ [(a, d)], if base ∧ st = ST.UNCORR then s.errCIC a ST.UNCORR 3 else s)) (([] : List (Nat × Line)), s)

/-- R461: a line that a page operation wrote into a page pool, as it is written. -/
def State.capturePage (s : State) (a : Nat) : State :=
  if s.journalling then s.sendLines 6 (s.rget .STR_STEP) 1 [(a / 64 * 64, s.journalLine a)] else s

/-- The mirror list (R462): address and lines of each used entry. -/
def State.mirrorList (s : State) : List (Nat × Nat) :=
  (List.range 256).filterMap fun i =>
    let a := blockAddr 8 (0x100000 + 16 * i)
    let n := s.nat (a + 8) 4
    if n = 0 then none else some (s.nat a 8, n)

/-- R440, R462: whether the mirror list keeps its limits. -/
def State.mirrorOk (s : State) : Bool :=
  let l := s.mirrorList
  decide ((l.map (·.2)).sum ≤ 16384) && l.all fun p => p.1 % 64 = 0 && match placeOf p.1 with
    | .scratch _ _ => true
    | _ => false

/-- The scratch ranges that a journal carries for a core: its page descriptor table and its segment descriptors. -/
def State.bookRanges (s : State) (n : Nat) : List (Nat × Nat) :=
  [(scratchAddr n (s.fget F.KVP_DTBASE_OFF n), 8 * s.npage n), (scratchAddr n (s.fget F.KVP_SEGBASE_OFF n), 320 * s.nseg n)].filter fun p => p.2 ≠ 0

def linesOf (r : Nat × Nat) : Nat := if r.2 = 0 then 0 else (r.1 + r.2 - 1) / 64 + 1 - r.1 / 64

/-- The KVP values that JREG carries. -/
def State.kvRegs (s : State) (n : Nat) : List Nat := [s.rget .KVP_FREE n, s.rget .KVP_DEFER n, s.rget .KVP_RESERVE n, s.rget .KVP_LIVE n]

/-- The cores that have a page pool or books. -/
def State.kvCores (s : State) : List Nat := (List.range 1024).filter fun n => s.npage n ≠ 0 || s.nseg n ≠ 0

/-- R464: the ranges of the base copy: page pools, descriptor tables and mirror list. -/
def State.copyRanges (s : State) : List (Nat × Nat) :=
  (s.kvCores.flatMap fun n =>
    ((List.range 4).map fun c => (vaultAddr n c (4096 * s.fget F.KVP_POOL_POOLOFF n), 4096 * s.npage n)) ++ s.bookRanges n) ++
  s.mirrorList.map fun p => (p.1, 64 * p.2)

/-- The address of line `i` of a list of ranges. -/
def lineAt : List (Nat × Nat) → Nat → Option Nat
  | [], _ => none
  | r :: rs, i => if i < linesOf r then some (r.1 / 64 * 64 + 64 * i) else lineAt rs (i - linesOf r)

/-- R461, R464: the step boundary of an active device in JOURNAL, after step `n`: descriptor and mirror lines written in the
step, changed KVP registers, output slots, the next lines of the base copy (as many as a free value says, since the host
windows that bring them are not timed), and JEND. -/
def State.journalBoundary (s : State) (n : Nat) : State :=
  if !s.journalling then s
  else
    let ranges := s.kvCores.flatMap s.bookRanges ++ s.mirrorList.map fun p => (p.1, 64 * p.2)
    let hit (a : Nat) : Bool := ranges.any fun r => decide (r.1 / 64 * 64 ≤ a) && decide (a < r.1 + r.2)
    let (ls, s) := s.copyLines false (s.cic.wlog.filter hit)
    let s := s.sendLines 6 n ls.length ls
    let s := s.kvCores.foldl (fun s c =>
      if ((s.cic.kvPrev.find? fun p => p.1 = c).map (·.2)) = some (s.kvRegs c) then s
      else
        let s := if 131072 ≤ s.cic.outq.length then s.pairBreaks BC.BACKLOG
          else s.sendFrame 7 n (leBytes 2 c ++ List.replicate 6 0 ++ (s.kvRegs c).flatMap (leBytes 8))
        s.setCic { s.cic with jframes := s.cic.jframes + 1 }) s
    let outs := (List.range s.ctlNseq).map fun i => blockAddr 4 (0x200000 + 0x10000 * (n % 2) + 64 * i)
    let s := s.sendLines 6 n outs.length (outs.map fun a => (a, s.journalLine a))
    let rs := s.copyRanges
    let total := (rs.map linesOf).sum
    let (s, flag) := if s.cic.copyDone then (s, false)
      else
        let (x, s) := s.fresh
        let from_ := (s.cic.copied).getD 0
        let k := min (x + 1) (total - from_)
        let as := (List.range k).filterMap fun i => lineAt rs (from_ + i)
        let (ls, s) := s.copyLines true as
        let s := s.sendLines 9 n ls.length ls
        let done := decide (total ≤ from_ + k)
        (s.setCic { s.cic with copied := some (from_ + k), copyDone := done }, done)
    let s := s.sendFrame 8 n (leBytes 8 s.cic.jframes ++ leBytes 1 (if flag then 1 else 0))
    s.setCic { s.cic with wlog := [], jframes := 0, kvPrev := s.kvCores.map fun c => (c, s.kvRegs c) }

/-! ### Inputs of an active device (R455) -/

/-- INPUT frames of three entries, then INEND. -/
def State.sendInputs (s : State) (step : Nat) : Nat → List (Nat × List Byte) → State
  | 0, _ => s
  | _, [] => s
  | fuel + 1, es =>
    (s.sendFrame 4 step ((es.take 3).flatMap fun e => leBytes 2 e.1 ++ e.2)).sendInputs step fuel (es.drop 3)

/-- R455: the entries that a poll took. A record that finds the pair buffer full breaks a linked pair. -/
def State.captureInputs (s : State) (es : List (Nat × List Byte)) (cond : Nat) : State :=
  if !(s.cmode = 1 && !s.standby && s.pairFlows) then s
  else if 131072 ≤ s.cic.outq.length + es.length / 3 + 1 then (if s.pst = PS.LINKED then s.pairBreaks BC.BACKLOG else s)
  else
    let n := s.rget .STR_STEP
    let s := s.sendInputs n es.length es
    (s.sendFrame 5 n (leBytes 2 es.length ++ leBytes 2 cond)).rset .CIC_LASTIN 0 0 n

/-! ### Journal of a standby (R463) -/

/-- Write one staged line into the device. An absent line is logged by the block that holds its region too (R14); the bits of a poisoned byte
of an output slot are unspecified (R159). -/
def State.applyLine (s : State) (a : Nat) (d : Line) : State :=
  match placeOf a with
  | .reg 4 off =>
    if 0x200000 ≤ off ∧ off < 0x220000 then (let (b, s) := s.reveal d; s.putBytes a b) else s.errCIC a ST.ABSENT 1
  | .scratch n off =>
    if s.present (.scratch n off) then s.writeScratch n (off : Nat) d (fun _ => true)
    else (s.errCOR n (scratchAddr n off) ST.ABSENT 3).errCIC a ST.ABSENT 1
  | p => match p.chan with
    | some (c, off) => if s.chPresent c off then s.writeLine c off d (fun _ => true) else (s.chErr c off ST.ABSENT 3).errCIC a ST.ABSENT 1
    | none => s.errCIC a ST.ABSENT 1

/-- R463, R465: apply a staged step. -/
def State.applyStage (s : State) (n : Nat) (base : Bool) : State :=
  let st := s.cic.stage
  let s := st.lines.foldl (fun s p => s.applyLine p.1 p.2) s
  let s := st.regs.foldl (fun s p => match p.2 with
    | [a, b, c, d] => (((s.rset .KVP_FREE p.1 0 a).rset .KVP_DEFER p.1 0 b).rset .KVP_RESERVE p.1 0 c).rset .KVP_LIVE p.1 0 d
    | _ => s) s
  let s := (s.rset .CIC_APPLIED 0 0 n).rset .STR_OUTSTEP 0 0 n
  let s := s.setCic { s.cic with stage := {} }
  let s := s.serveAll
  if base then (s.fset F.CIC_STAT_SYNCED 0 0 1).raise .pairSynced 0 0 0 (n % 2 ^ 32) 1 else s

/-! ### Hashes (R459, R460) -/

/-- A slot of an output bank as it is hashed: tokens whose PMASK bit is 1 are 0. -/
def hashSlot (d : List Byte) : List Byte :=
  let pmask := bits (leNat (d.take 8)) 27 16
  d.take 16 ++ (List.range 12).flatMap fun i => if pmask.testBit i then [0, 0, 0, 0] else (d.drop (16 + 4 * i)).take 4

/-- R459: the step hash of step `n` and whether a slot has POISON. -/
def State.stepHash (s : State) (n : Nat) : Nat × Bool :=
  let slots := (List.range s.ctlNseq).map fun i => s.bytes (blockAddr 4 (0x200000 + 0x10000 * (n % 2) + 64 * i)) 64
  (crc64 (slots.flatMap hashSlot), slots.any fun d => (leNat (d.take 8)).testBit 9)

/-- R460: compare the two hashes of a step once both are held; the result says that they differ. -/
def State.compareHash (s : State) (n : Nat) : State × Bool :=
  match s.cic.own.find? (fun h => h.1 = n && !h.2.2.2), s.cic.peer.find? (fun h => h.1 = n) with
  | some a, some b =>
    let s := s.setCic { s.cic with peer := s.cic.peer.filter fun h => h.1 ≠ n,
                                   own := s.cic.own.map fun h => if h = a then (h.1, h.2.1, h.2.2.1, true) else h }
    if a.2.1 = b.2.1 then ((s.rset .CIC_HASHSTEP 0 0 n).bump F.CIC_CMPCNT_MATCH 0 0 1, false)
    else
      let s := s.bump F.CIC_CMPCNT_DIVERGE 0 0 1
      let s := if s.flag F.CIC_DIVLOG3_VALID then s
        else ((((s.w1cMark .CIC_DIVLOG3 0 0 1).rset .CIC_DIVLOG0 0 0 n).rset .CIC_DIVLOG1 0 0 a.2.1).rset .CIC_DIVLOG2 0 0 b.2.1).rset .CIC_DIVLOG3 0 0
          (1 + (if a.2.2.1 then 2 else 0) + if b.2.2 then 4 else 0)
      (s.raise .diverge 0 0 0 (n % 2 ^ 32) 1, true)
  | _, _ => (s, false)

/-- R460: hashes whose partner has not come after 64 later ones are dropped. -/
def State.dropOld (s : State) : State :=
  let own := s.cic.own
  let old := own.take (own.length - 64)
  let gone := s.cic.peer.filter fun h => own.length ≥ 64 ∧ (own.take (own.length - 63)).any fun o => o.1 ≥ h.1
  let s := s.setCic { s.cic with own := own.drop old.length, peer := s.cic.peer.filter fun h => !gone.contains h }
  s.bump F.CIC_CMPCNT_UNCMP 0 0 (gone.length + (old.filter fun h => !h.2.2.2).length)

end Sys2Proof.Machine
end

