-- ==== Sys2Proof/Machine/Boundary.lean ====
section
/-!
DEFINITION. What takes effect at a step boundary, or at once outside RUNNING (R112): channel map changes, reserve refills, Weevil
commands, pair modes and licences; and the other actions of a step boundary (R151, R248, R363, R461).
-/
namespace Sys2Proof.Machine

/-! ### Channel map (R226, R227, R339, R340) -/

def State.setChState (s : State) (c : Chan) (v : Nat) : State :=
  match c with
  | .vault n j => s.fset (F.VLT_CHMAP_STATE j) n 0 v
  | .side k j => s.fset (F.SSK_CHMAP_STATE (j % 8)) k (j / 8) v

def State.setChPending (s : State) (c : Chan) (v : Nat) : State :=
  match c with
  | .vault n j => s.fset (F.VLT_CHMAP_PENDING j) n 0 v
  | .side k j => s.fset (F.SSK_CHMAP_PENDING (j % 8)) k (j / 8) v

def State.setMocause (s : State) (c : Chan) (v : Nat) : State :=
  match c with
  | .vault n j => s.fset (F.VLT_CHMAP_MOCAUSE j) n 0 v
  | .side k j => s.fset (F.SSK_CHMAP_MOCAUSE (j % 8)) k (j / 8) v

/-- Bytes of a channel's range. -/
def Chan.size : Chan → Nat
  | .vault _ _ => 0x2000000
  | .side _ _ => 0x80000000

/-- The channel that INDEX of a CHMAP_SET names (R424). -/
def chmapChan (kind index : Nat) : Chan := chanOfNum (if kind = 0 then index % 4096 else 4096 + index % 256)

/-- R226: a CHMAP_SET action on a channel, judged against its map state as it takes effect: the status, or `none` where a retraining
begins. -/
def State.chmapApply (s : State) (c : Chan) (action : Nat) : Option Nat × State :=
  let st := s.chState c
  let s := s.setChPending c 0
  if action = 0 ∧ st = CH.OFFLINE then (some ST.OK, s.setChState c CH.ONLINE)
  else if action = 1 ∧ st = CH.ONLINE then
    (some ST.OK, (s.setChState c CH.OFFLINE).modChan c fun v => { v with merge := [], rwq := [] })
  else if action = 2 ∧ (st = CH.OFFLINE ∨ st = CH.MAPPED_OUT) then
    let s := if st = CH.MAPPED_OUT then s.loseRange c.base c.size else s
    (none, (s.setChState c CH.RETRAINING).setMocause c 0)
  else if action = 3 ∧ (st = CH.ONLINE ∨ st = CH.OFFLINE) then (some ST.OK, s.mapOut c 4)
  else (some ST.STATE, s)

/-- The CHMAP_SET in progress takes effect. -/
def State.chmapPending (s : State) : State :=
  match s.cmdOf OP.CHMAP_SET with
  | none => s
  | some cmd =>
    match cmd.args with
    | [kind, action, index] =>
      match s.chmapApply (chmapChan kind index) action with
      | (some st, s) => s.complete OP.CHMAP_SET st
      | (none, s) => { s with cmds := s.cmds.map fun d => if d = cmd then { d with args := [kind, action, index, 1], since := s.cc } else d }
    | _ => s

/-! ### Reserve refills (R255) -/

/-- A KV_REFILL in progress takes effect outside a step boundary. -/
def State.refillPending (s : State) : State :=
  match s.cmdOf OP.KV_REFILL with
  | none => s
  | some c =>
    let (e, s) := s.refillAll c.data
    { s.complete OP.KV_REFILL (refillAnswer e).1 (refillAnswer e).2 with kvMask := none, kvEmpty := [] }

/-! ### Licences (R3, R528) -/

/-- The features in force once every change counts. -/
def State.features (s : State) : Nat :=
  (List.range 16).foldl (fun f k => if s.flag F.LIC_SLOTA_VALID 0 k then f ||| s.fget F.LIC_SLOTA_FEATURES 0 k else f) (s.fget F.LIC_STAT_FACTORY)

/-- The licence changes take effect, which completes a LICENCE_INSTALL in progress. A pair whose licence is gone becomes OFF (R444). -/
def State.licenceApply (s : State) : State :=
  let s := s.fset F.LIC_STAT_FIELD 0 0 ((List.range 16).foldl (fun f k =>
    if s.flag F.LIC_SLOTA_VALID 0 k then f ||| s.fget F.LIC_SLOTA_FEATURES 0 k else f) 0)
  let s := (s.fset F.LIC_STAT_INFORCE 0 0 s.features).fset F.LIC_STAT_PEND 0 0 0
  let s := if !s.licensed 2 ∧ s.pst ≠ PS.OFF then s.pairOff else s
  s.complete OP.LICENCE_INSTALL ST.OK

/-- A change of the grant slots: pending until the step boundary while the stream is RUNNING. -/
def State.licenceChanged (s : State) : State := if s.running then s.fset F.LIC_STAT_PEND 0 0 1 else s.licenceApply

/-! ### Weevil commands (R301) -/

/-- Every pending command of every channel takes effect. -/
def State.wvPending (s : State) (boundary : Bool) : State :=
  s.wvl.foldl (fun s p => p.2.chs.foldl (fun s q =>
    if q.2.pend = 0 ∧ !q.2.clr then s
    else
      let s := s.setWch p.1 q.1 { s.wch p.1 q.1 with pend := 0, clr := false }
      s.wvApply p.1 q.1 q.2.pend q.2.clr boundary) s) s

/-- A write of WVL_CHCTL: 1 ENABLE, 2 DISABLE (0 neither), and CLEAR; a later command of a pair replaces an earlier one (R303). -/
def State.wvCommand (s : State) (k ch pend : Nat) (clear : Bool) : State :=
  if !s.running then s.wvApply k ch pend clear false
  else
    let c := s.wch k ch
    let s := s.setWch k ch { c with pend := if pend = 0 then c.pend else pend, clr := c.clr || clear }
    let s := if pend = 0 then s else s.fset F.WVL_CHCTL_ENPEND k ch 1
    if clear then s.fset F.WVL_CHCTL_CLRPEND k ch 1 else s

/-! ### Pair modes (R441 to R444) -/

/-- The ports P6 and P7 change between Ethernet and Cicada; a port that changes trains again. -/
def State.portMode (s : State) (cicada : Bool) : State :=
  [6, 7].foldl (fun s p =>
    if s.flag F.ETH_STAT_MODE p = cicada then s
    else
      let s := ((s.fset F.ETH_STAT_MODE p 0 (if cicada then 1 else 0)).fset F.ETH_STAT_LINK p 0 0).fset F.ETH_STAT_RATE p 0 0
      if p = 6 then s.fset F.CIC_STAT_P6UP 0 0 0 else s.fset F.CIC_STAT_P7UP 0 0 0) s

/-- The pair engine as a PAIR_MODE with a MODE leaves it. Where a pair that runs, or seeks, keeps its peer, role and path, the frames in
transit and the records held go on (R465), and only the base copy of a journal begins anew (R464); else both directions start afresh, and
the first SEQ is open. -/
def State.restartCic (s : State) (keep : Bool) (b : PairBody) : State :=
  let c := s.cic
  if keep then
    s.setCic { c with seekAt := s.cc, hbAt := s.cc, hbSent := s.cc, misses := 0, copied := none, copyDone := false,
                      recs := if b.mode = 1 then c.recs else [] }
  else
    let (x, s) := s.fresh
    s.setCic { ({} : Cic) with seekAt := s.cc, hbAt := s.cc, hbSent := s.cc, polls := c.polls, wrote := c.wrote, own := c.own, due := c.due,
                               txSeq := x % 2 ^ 32 }

/-- A PAIR_MODE takes effect. -/
def State.applyPair (s : State) (b : PairBody) : State :=
  let s := s.setCic { s.cic with pending := none }
  let s := s.fset F.CIC_STAT_PENDING 0 0 0
  let wasReplay := s.standby && s.cmode = 1
  let s := if wasReplay ∧ !(b.role = 1 ∧ b.mode = 1) then s.fset F.CIC_STAT_PACED 0 0 0 else s
  let off := b.mode = 0
  let keep := s.pairFlows && decide (b.role = s.fget F.CIC_STAT_ROLE) && decide (b.path = s.fget F.CIC_STAT_PATH) &&
    decide (b.uid = s.rget .CIC_PEERUID)
  let s := if off then s.pairOff else s
  let s := ((s.fset F.CIC_STAT_MODE 0 0 b.mode).fset F.CIC_STAT_ROLE 0 0 b.role).fset F.CIC_STAT_PATH 0 0 b.path
  let s := (s.fset F.CIC_CFG_DIVHALT 0 0 (if b.divhalt then 1 else 0)).fset F.CIC_CFG_RELAYQP 0 0 b.relay
  let s := (s.rset .CIC_PEERUID 0 0 b.uid).rset .CIC_JBUF 0 0 (b.jbuf + b.jlen * 2 ^ 48)
  if off then s.complete OP.PAIR_MODE ST.OK s.pairBody
  else
    let s := s.portMode (b.path = 0)
    let s := ((s.fset F.CIC_STAT_PSTATE 0 0 PS.SEEKING).fset F.CIC_STAT_LCAUSE 0 0 0).fset F.CIC_STAT_BCAUSE 0 0 0
    let s := if b.role = 1 ∧ !s.flag F.CIC_STAT_SYNCED then s.rset .CIC_APPLIED 0 0 (2 ^ 64 - 1) else s
    s.restartCic keep b

/-- The pending PAIR_MODE takes effect; where the Cicada licence has lapsed meanwhile it is refused as R6 says. -/
def State.pairPending (s : State) : State :=
  match s.cic.pending with
  | some b =>
    if s.licensed 2 then s.applyPair b
    else
      let s := (s.setCic { s.cic with pending := none }).fset F.CIC_STAT_PENDING 0 0 0
      s.complete OP.PAIR_MODE ST.LICENCE s.pairBody
  | none => s

/-! ### Leaving RUNNING, and the step boundary -/

/-- R112: every change that waits for a boundary takes effect as the stream leaves RUNNING. -/
def State.pendingAtOnce (s : State) : State :=
  let s := if s.flag F.LIC_STAT_PEND then s.licenceApply else s
  ((s.chmapPending.refillPending).wvPending false).pairPending

/-- R151: a core whose mismatches within the step reached the limit is marked failed at the boundary. -/
def State.resStep (s : State) : State :=
  s.cores.foldl (fun s p =>
    let lim := max 1 (s.fget F.COR_RESCFG_LIMIT p.1)
    let s := if s.flag F.COR_RESCFG_FAILEN p.1 ∧ lim ≤ p.2.stepHits then s.failCore p.1 FC.RESIDUE else s
    s.setCore p.1 { s.core p.1 with stepHits := 0, stepPois := false }) s

/-- The step boundary that ends step STR_STEP. -/
def State.stepBoundary (s : State) : State :=
  let n := s.rget .STR_STEP
  let s := s.resStep.scbStep
  let s := s.kvStep
  let s := s.journalBoundary n
  let s := if s.flag F.LIC_STAT_PEND then s.licenceApply else s
  let s := ((s.chmapPending).wvPending true).pairPending
  s.rset .STR_STEP 0 0 ((n + 1) % 2 ^ 64)

end Sys2Proof.Machine
end

