-- ==== Sys2Proof/Machine/Stall.lean ====
section
/-!
DEFINITION. The stream controllers outside bundles: stream states (R110 to R114), mailboxes (R89 to R93), gating (R102), freezes
(R95 to R101), traps (R107 to R109, R578) and debug stepping (R103).
-/
namespace Sys2Proof.Machine

def State.setStr (s : State) (x : Stream) : State := { s with str := x }
def State.setStall (s : State) (x : Stall) : State := { s with stall := x }

/-! ### Mailboxes (R89 to R93) -/

/-- Device address of an input slot and of a poll-buffer slot. -/
def inSlot (i : Nat) : Nat := blockAddr 4 (0x100000 + 64 * i)
def pollSlot (i : Nat) : Nat := blockAddr 4 (0x300000 + 64 * i)

/-- CTRL.CMD of 64 bytes of a slot. -/
def slotCmd (b : List Byte) : Nat := ((b.head?).getD 0).toNat % 16

/-- R91, R93: a pending entry takes effect: it replaces the present one, or, with CMD 0, withdraws it. -/
def State.mbxTake (s : State) (p : MbxPend) : State :=
  let s := s.putBytes (inSlot p.slot) p.bytes
  s.setStr { s.str with present := smPut false s.str.present p.slot (slotCmd p.bytes ≠ 0),
                        pendingMbx := s.str.pendingMbx.filter fun q => q.slot ≠ p.slot }

/-- Every entry in transit becomes present at once (R91). -/
def State.mbxAll (s : State) : State := s.str.pendingMbx.foldl State.mbxTake s

/-- The entry of a slot as a write finds it: the pending one, else what the slot holds. -/
def State.mbxEntry (s : State) (slot : Nat) : List Byte :=
  match s.str.pendingMbx.find? fun p => p.slot = slot with
  | some p => p.bytes
  | none => s.bytes (inSlot slot) 64

/-- R91: a write of bytes at an offset of an input slot. -/
def State.mbxWrite (s : State) (slot off : Nat) (d : List Byte) : State :=
  let old := s.mbxEntry slot
  let p : MbxPend := { slot := slot, bytes := old.take off ++ d ++ old.drop (off + d.length), due := s.str.scnt.toNat + 64 }
  let s := s.setStr { s.str with pendingMbx := s.str.pendingMbx.filter (fun q => q.slot ≠ slot) ++ [p] }
  if s.running then s else s.mbxTake p

/-- R579: every entry withdrawn, input slots and poll buffer zero. -/
def State.mbxClear (s : State) : State :=
  let s := s.setStr { s.str with present := [], pendingMbx := [], captured := [] }
  { s with mem := s.mem.filter fun c => !(decide (inSlot 0 ≤ c.1) && decide (c.1 < inSlot 1024) ||
                                         decide (pollSlot 0 ≤ c.1) && decide (c.1 < pollSlot 1024)) }

/-! ### Gating (R102) -/

/-- GATE_EFF as the registers ask for it. -/
def State.gateWant (s : State) : Nat := max (s.fget F.STR_GATE_GATE_HOST) (s.fget F.STR_GATE_GATE_PWR)

/-- GATE_HOST or GATE_PWR has changed: at once where no window is counted, else it waits for its window. -/
def State.gateChange (s : State) : State :=
  let w := s.gateWant
  let last := match s.stall.gateNew.getLast? with
    | some p => p.1
    | none => s.fget F.STR_GATE_GATE_EFF
  if w = last then s
  else if s.stall.windows ∨ s.str.starting then s.setStall { s.stall with gateNew := s.stall.gateNew ++ [(w, s.cc)] }
  else s.fset F.STR_GATE_GATE_EFF 0 0 w

/-- The frames of the window that begins at real cycle `w`. -/
def State.openWindow (s : State) (w : Nat) : State :=
  let due := s.stall.gateNew.filter fun p => p.2 + 64 ≤ w
  let s := match due.getLast? with
    | some p => s.fset F.STR_GATE_GATE_EFF 0 0 p.1
    | none => s
  let g := s.fget F.STR_GATE_GATE_EFF
  s.setStall { s.stall with window := w, gateNew := s.stall.gateNew.filter (fun p => w < p.2 + 64),
                            gateAt := if g = 0 then none else some (w + 192 - 12 * g) }

/-- A gating window ends at or before this cycle. -/
def State.windowDue (s : State) : Bool := s.stall.windows && decide (s.stall.window + 192 ≤ s.cc)

/-- The next window begins. -/
def State.gatingWindow (s : State) : State := s.openWindow (s.stall.window + 192 * ((s.cc - s.stall.window) / 192))

/-! ### Stream states -/

/-- The stream enters a state. Leaving RUNNING and STALLED, entries in transit become present (R91), pending changes take effect
(R112), the side stacks' host queues and the controllers' own service run (R228); leaving TRAPPED, what that service held back is served. IDLE, LOADED and FAULTED end the freeze and the
windows (R102); LOADED and FAULTED end the leases (R352), and what leads to IDLE ends those that its rule names. -/
def State.enter (s : State) (st : StreamState) : State :=
  let was := s.running
  let trapped := decide (s.str.st = .trapped)
  let s := s.setStr { s.str with st := st }
  let final := st = .idle ∨ st = .loaded ∨ st = .faulted
  let s := if final then
      let want := s.gateWant
      let s := s.setStall { ({} : Stall) with lanes := s.stall.lanes, laneBad := s.stall.laneBad }
      let s := s.setStr { s.str with ended := false, atStep := false, starting := false, startHeld := false, haltStep := none }
      let s := s.fset F.STR_GATE_GATE_EFF 0 0 want
      if st = .idle then s else s.endLeases
    else s
  let s := if st = .idle then s.rset .STR_IMAGE 0 0 0 else s
  if was ∧ !s.running then ((s.mbxAll.pendingAtOnce).drainHost).serveAll
  else if trapped ∧ !s.running then s.serveAll
  else s

/-- Bring the stream to FAULTED from any state (R46, R100, R101, R496). -/
def State.toFaulted (s : State) : State := if s.str.st = .faulted then s else s.enter .faulted

/-- SCNT and STEP: the body of STREAM_HALT's completion (R424). -/
def State.haltBody (s : State) : List Byte := leBytes 8 s.str.scnt.toNat ++ leBytes 8 (s.rget .STR_STEP)

/-- Complete every STREAM_HALT in progress. -/
def State.haltsDone (s : State) : State :=
  (s.cmds.filter fun c => c.op = OP.STREAM_HALT).foldl (fun s _ => s.complete OP.STREAM_HALT ST.OK s.haltBody) s

/-- The stream halts (R111). -/
def State.halt (s : State) (ended atStep : Bool) : State :=
  let s := s.setStr { s.str with ended := ended, atStep := atStep, haltStep := none }
  (s.enter .halted).haltsDone

/-! ### Requests and freezes (R95 to R101) -/

/-- The request of the stop that leads to FAULTED (R496): it freezes as the sources of R95 do and shows in no register. -/
def SRC_STOP : Nat := 7

/-- A request has taken effect (R96); one for a step boundary does so there (R111). -/
def StallReq.effect (r : StallReq) (cc : Nat) : Bool := decide (r.raised + (if r.step then 24 else 17) ≤ cc)
/-- Its horizon has passed. -/
def StallReq.horizon (r : StallReq) (cc : Nat) : Bool := decide (r.raised + 24 ≤ cc)

/-- Real cycle in which the freeze began. -/
def State.frzStart (s : State) (f : Freeze) : Nat := s.cc - f.cyc

/-- The stall cycle in which a request takes effect. -/
def effectCycle (f0 : Nat) (r : StallReq) : Nat := r.raised + 17 - f0

/-- R98: the stall cycle in which a released request counts as released. -/
def releaseCycle (f0 : Nat) (r : StallReq) : Nat := max (effectCycle f0 r) ((r.released).getD 0 - f0)

/-- R98: the least multiple of 12 at or above u + 24. -/
def liftCycle (u : Nat) : Nat := 12 * ((u + 24 + 11) / 12)

/-- The requests that hold or have held the freeze. -/
def State.inEffect (s : State) : List StallReq := s.stall.reqs.filter fun r => r.effect s.cc

/-- The stall cycle before which the freeze does not lift: r of R98, or the end of the gated frames; `none` while a request holds. -/
def State.liftAt (s : State) (f : Freeze) : Option Nat :=
  let rs := s.inEffect
  let f0 := s.frzStart f
  if rs.any fun r => r.released.isNone then none
  else
    let u := (rs.map (releaseCycle f0)).foldl max 0
    some (max (if rs = [] then 0 else liftCycle u) f.gateEnd)

/-- R101: a request of bits 4, 5 or 6. -/
def StallReq.untimed (r : StallReq) : Bool := r.src = 4 || r.src = 5 || r.src = 6

/-- Release the requests that a condition names, now. An untimed release starts the timer again (R101). -/
def State.release (s : State) (p : StallReq → Bool) : State :=
  let hit := s.stall.reqs.any fun r => p r && r.released.isNone && r.untimed
  let reqs := s.stall.reqs.map fun r => if p r ∧ r.released.isNone then { r with released := some s.cc } else r
  let frz := s.stall.frz.map fun f => if hit then { f with timedFrom := f.cyc } else f
  s.setStall { s.stall with reqs := reqs, frz := frz }

/-- Set bits of STR_STALLSRC. -/
def State.seenSrc (s : State) (srcs : List Nat) : State :=
  let b := srcs.foldl (fun v b => if b < 7 then v ||| 2 ^ b else v) 0
  if b = 0 then s else (s.w1cMark .STR_STALLSRC 0 0 b).fset F.STR_STALLSRC_SEEN 0 0 (s.fget F.STR_STALLSRC_SEEN ||| b)

/-- Whether a freeze is due: the horizon of a request has come, or the first gated frame of the window. -/
def State.gateDue (s : State) : Bool := match s.stall.gateAt with
  | some g => decide (g ≤ s.cc)
  | none => false
def State.freezeDue (s : State) : Bool := s.stall.reqs.any (fun r => r.horizon s.cc) || s.gateDue

/-- A trap or a halt whose horizon has come and that has not yet changed the state. -/
def State.trapDue (s : State) : Bool := s.stall.traps.any fun t => t.raised + 24 ≤ s.cc
def State.haltDue (s : State) : Bool :=
  (s.str.st ≠ .halted) && s.stall.reqs.any fun r => r.src = 6 && r.released.isNone && r.horizon s.cc
def State.stopDue (s : State) : Bool := s.stall.reqs.any fun r => r.src = SRC_STOP && r.horizon s.cc

/-- R107, R109: write STR_TRAP* for the trap with the lowest SCNT, then the lowest core; count the others. -/
def TrapRec.before (a b : TrapRec) : Bool := decide (a.scnt < b.scnt) || (a.scnt == b.scnt && decide (a.core ≤ b.core))
def firstTrap : List TrapRec → Option TrapRec
  | [] => none
  | t :: ts => match firstTrap ts with
    | some u => some (if t.before u then t else u)
    | none => some t

def State.recordTraps (s : State) : State :=
  match firstTrap s.stall.traps with
  | none => s
  | some t =>
    let s := s.rset .STR_TRAPADDR 0 0 t.addr
    let s := s.rset .STR_TRAPSCNT 0 0 t.scnt
    let s := s.rset .STR_TRAPINFO 0 0 (halfOfCore t.core * 2 ^ 16 + t.core * 2 ^ 6 + t.cause)
    let s := s.rset .STR_ERRCNT 0 0 (min (s.rget .STR_ERRCNT + s.stall.traps.length - 1) (2 ^ 64 - 1))
    (s.setStall { s.stall with traps := [], recorded := some t.core }).raise .streamTrap t.core (halfOfCore t.core) t.cause 0 (halfOfCore t.core)

/-- The state that a freeze brings once traps, halts and stops count. -/
def State.freezeState (s : State) : State :=
  if s.stopDue then s.toFaulted
  else
    let trap := s.trapDue
    let halt := s.haltDue
    let pace := s.stall.reqs.any fun r => r.src = 6 ∧ r.unit = 1 ∧ r.released = none ∧ r.horizon s.cc
    let s := if trap then s.recordTraps.enter .trapped else s
    if halt then
      let step := pace || (match s.str.haltStep with
        | some b => decide (b ≤ s.str.scnt.toNat)
        | none => false)
      let s := if pace then s.fset F.CIC_STAT_PACED 0 0 1 else s
      s.halt false (step && decide (s.str.stepBase = s.str.scnt.toNat))
    else s

/-- FREEZE_BEGIN: every unit freezes (R96), or, within a freeze, a trap or a halt takes effect (R107). -/
def State.freezeBegin (s : State) : State :=
  match s.stall.frz with
  | some _ => s.freezeState
  | none =>
    let gate := s.gateDue
    let gateEnd := if gate then s.stall.window + 192 - s.cc else 0
    let rs := s.inEffect
    let s := s.setStall { s.stall with frz := some { cyc := 0, held := !rs.isEmpty, gateEnd := gateEnd, timedFrom := 0 } }
    let s := s.bump F.STR_STALLNUM_FREEZES 0 0 1
    let s := s.seenSrc (rs.map (·.src) ++ (if gate then [3] else []))
    let s := s.setStr { s.str with st := .stalled }
    s.freezeState

/-- FREEZE_BEGIN occurs. -/
def State.freezeBegins (s : State) : Bool :=
  match s.stall.frz with
  | some _ => (s.str.st = .stalled && (s.trapDue || s.haltDue || s.stopDue)) || (s.str.st = .trapped && s.haltDue)
  | none => s.str.st = .running && !s.str.starting && s.freezeDue

/-- Gated frames within real cycles [a, b) of the current window. -/
def State.gatedIn (s : State) (a b : Nat) : Nat := match s.stall.gateAt with
  | some g => min b (s.stall.window + 192) - max a g
  | none => 0

/-- R580: frozen cycles [cc, cc + n) pass: STALLCNT counts them, GATECNT those of gated frames in which no request is active. A request
that waits for a step boundary waits on (R111); a source that joins the freeze shows in STR_STALLSRC. -/
def State.frozenCycles (s : State) (n : Nat) : State :=
  let live := s.stall.reqs.filter fun r => r.src < 7
  let from_ := (live.map fun r => max ((r.released).getD 0) (r.raised + 17)).foldl max s.cc
  let gated := if live.any fun r => r.released.isNone then 0 else s.gatedIn (max s.cc from_) (s.cc + n)
  let s := (s.bump F.STR_STALLCNT_CYCLES 0 0 n).bump F.STR_GATECNT_CYCLES 0 0 gated
  let old := s.inEffect
  let wait (r : StallReq) : StallReq := if r.step ∧ r.released = none ∧ !r.effect s.cc then { r with raised := r.raised + n } else r
  let frz := s.stall.frz.map fun f => { f with cyc := f.cyc + n }
  let s : State := { s with cc := s.cc + n, stall := { s.stall with frz := frz, reqs := s.stall.reqs.map wait } }
  s.seenSrc (((s.inEffect.filter fun r => !old.contains r).map (·.src)) ++ (if gated = 0 then [] else [3]))

/-- Whether the current real cycle lies in a gated frame. -/
def State.gatedNow (s : State) : Bool := match s.stall.gateAt with
  | some g => decide (g ≤ s.cc) && decide (s.cc < s.stall.window + 192)
  | none => false

/-- A number whose bits a list names. -/
def bitsOf (l : List Bool) : Nat := (l.zipIdx.map fun p => if p.1 then 2 ^ p.2 else 0).sum

/-- R580: STR_STALLREQ of a half. -/
def State.stallReq (s : State) (h : Nat) : Nat :=
  bitsOf ((List.range 7).map fun k =>
    if k = 3 then s.gatedNow && s.stall.frz.isSome
    else s.stall.reqs.any fun r => r.src = k && r.half = h && (r.released.isNone || (s.stall.frz.isSome && !r.effect s.cc)))

/-- The freeze lifts now: nothing holds it, r stall cycles or more have passed, a whole number of clock frames, and no gated frame is
in progress (R98, R102). -/
def State.liftReady (s : State) : Bool := match s.stall.frz with
  | some f => s.str.st = .stalled && !s.windowDue && !s.freezeBegins && !s.gatedNow && decide (f.cyc % 12 = 0) && (match s.liftAt f with
    | some r => decide (r ≤ f.cyc)
    | none => false)
  | none => false

/-- R217: the stall cycle in which the frozen service of a channel ends. -/
def State.serviceEnd (s : State) (f : Freeze) (unit : Nat) : Nat :=
  let f0 := s.frzStart f
  let starts := (s.stall.reqs.filter fun r => (r.src = 1 ∨ r.src = 2) ∧ r.unit = unit ∧ r.released.isNone).map (effectCycle f0)
  (starts.min?).getD 0 + (s.frozenService (chanOfNum unit)).2

/-- STALL_RELEASE occurs: the source is served. -/
def State.releases (s : State) (src half unit : Nat) : Bool :=
  let r? := s.stall.reqs.any fun r => r.src = src && r.half = half && r.unit = unit && r.released.isNone
  r? && (
    if src = 0 then s.itlServed unit
    else if src = 1 ∨ src = 2 then
      match s.stall.frz with
      | some f => decide (s.serviceEnd f unit ≤ f.cyc)
      | none => false
    else false)

/-- STALL_RELEASE. A channel's frozen service ends its refresh and its rewrite request together. -/
def State.stallRelease (s : State) (src half unit : Nat) : State :=
  if src = 0 then s.release fun r => r.src = 0 && r.half = half && r.unit = unit
  else
    let end_ := match s.stall.frz with
      | some f => s.frzStart f + s.serviceEnd f unit
      | none => s.cc
    let s := (s.frozenService (chanOfNum unit)).1
    let reqs := s.stall.reqs.map fun r =>
      if (r.src = 1 ∨ r.src = 2) ∧ r.unit = unit ∧ r.released.isNone then { r with released := some end_ } else r
    (s.setStall { s.stall with reqs := reqs }).serveAll

/-- FREEZE_LIFT: the held bundle may execute. A STREAM_RESUME that lifted it completes. -/
def State.freezeLift (s : State) : State :=
  let s := s.seenSrc (s.inEffect.map (·.src))
  let reqs := s.stall.reqs.filter fun r => !r.effect s.cc
  let s := s.setStall { s.stall with frz := none, reqs := reqs }
  (s.setStr { s.str with st := .running }).complete OP.STREAM_RESUME ST.OK

/-- R101: the freeze has lasted longer than STR_STALLMAX. One that only untimed requests have held is never timed. -/
def State.stallTooLong (s : State) : Bool := match s.stall.frz with
  | some f => !(s.inEffect.any fun r => r.untimed && r.released.isNone) &&
      (decide (f.gateEnd ≠ 0) || s.inEffect.any fun r => !r.untimed) && decide (s.fget F.STR_STALLMAX_LIMIT < f.cyc - f.timedFrom)
  | none => false

/-- Input power has not failed: a stream that power has left stands where it stopped (R473). -/
def State.powered (s : State) : Bool := !s.life.powerFailed

/-- Time passes with nothing commanded: one real cycle. A frozen cycle counts as one; where a bundle, a lift, a window or a freeze
is due the machine waits for its command. -/
def State.pass (s : State) : State :=
  if !s.powered then { s with cc := s.cc + 1 }
  else if s.windowDue ∨ s.freezeBegins ∨ s.liftReady ∨ s.stallTooLong then s
  else match s.stall.frz with
  | some _ => (s.frozenCycles 1).hostTick
  | none => if s.str.st = .running ∧ !s.str.starting then s else { s with cc := s.cc + 1 }.hostTick

/-- A step with nothing commanded: time passes, and events that are due then are delivered. -/
def State.tick (s : State) : State := s.pass.settle

/-! ### Debug stepping (R103) -/

/-- A debug request holds. -/
def State.debugHeld (s : State) : Bool := s.stall.reqs.any fun r => r.src = 4 && r.released.isNone

/-- DEBUG_STEP: a write of N to STEPN. -/
def State.debugStep (s : State) (n : Nat) : State :=
  if n = 0 ∨ !s.flag F.STR_DEBUG_DBGEN ∨ !s.debugHeld then s
  else
    let s := s.release fun r => r.src = 4
    s.setStall { s.stall with debugLeft := some (12 * n) }

/-- Writing DBGEN = 0. -/
def State.debugOff (s : State) : State :=
  let s := s.release fun r => r.src = 4
  s.setStall { s.stall with debugLeft := none }

/-- DEBUG_REFREEZE: the freeze after the last stepped bundle, at once and without a stall horizon. -/
def State.debugRefreeze (s : State) : State :=
  let r (h : Nat) : StallReq := { src := 4, half := h, unit := 0, raised := s.cc - 24 }
  let s := s.setStall { s.stall with reqs := s.stall.reqs ++ [r 0, r 1], debugLeft := none }
  s.freezeBegin

/-! ### Resuming (R108, R578) -/

/-- Words of a core's segment as memory holds them: a beat that does not decode clean gives `none` for its words. -/
def State.beatWords (s : State) (n p : Nat) : List (Option (BitVec 128)) × State :=
  let (d, _, s) := s.readLine (.vault n 3) (0x1C00000 + 0x10000 + 64 * (p / 4))
  ((List.range 4).map fun i => (lineNat ((d.drop (16 * i)).take 16)).map (BitVec.ofNat 128), s)

/-- The refetch of R108: from word `i` on, beat by beat, until the words due by `stop` are there or the queue is full: the words,
the fetch pointer and the state. -/
def State.refetchGo (n nword fwrap stop : Nat) (rs : List CoreBlk) :
    Nat → Nat → List (Nat × Option (BitVec 128)) → State → List (Nat × Option (BitVec 128)) × Nat × State
  | 0, i, acc, s => (acc, i, s)
  | fuel + 1, i, acc, s =>
    match nextWord rs nword fwrap 8192 i with
    | none => (acc, i, s)
    | some p =>
      let is := ((List.range 4).map (p / 4 * 4 + ·)).filter fun j => decide (p ≤ j) && decide (j < nword) && !inRanges rs j
      let due := s.dueOf n p
      if stop < due ∨ 1024 < acc.length + is.length then (acc, i, s)
      else
        let (ws, s) := s.beatWords n p
        let beat := is.map fun j => (j, (ws[j % 4]?).getD none)
        State.refetchGo n nword fwrap stop rs fuel (p / 4 * 4 + 4) (acc ++ beat) s

/-- A core reloads its resident area from the word area (R77, R108): the first word that cannot be read, if any. The places of such words
are kept: the core traps where one is due (R82). -/
def State.reloadResident (s : State) (n : Nat) : State × Option Nat :=
  let ws := (s.resRanges n).flatMap fun e => (List.range e.wcnt).map fun i => (e.woff + i, e.lboff + i)
  let r := ws.foldl (fun (p : List (Nat × BitVec 128) × List (Nat × Nat) × State) x =>
    let (d, _, s) := p.2.2.readLine (.vault n 3) (0x1C00000 + 0x10000 + 16 * x.1)
    match lineNat ((d.drop (16 * (x.1 % 4))).take 16) with
    | some v => (smPut 0 p.1 x.2 (BitVec.ofNat 128 v), p.2.1, s)
    | none => (p.1, p.2.1 ++ [x], s)) (([] : List (Nat × BitVec 128)), ([] : List (Nat × Nat)), s)
  let c := r.2.2.core n
  (r.2.2.setCore n { c with res := r.1, resBad := r.2.1.map (·.2), lberr := c.lberr.filter fun e => decide (1536 ≤ e.1) },
   (r.2.1.head?).map (·.1))

/-- The block and the offset in it of an SCNT, by the blocks entered lately. -/
def blockAt (path : List (Nat × Nat)) (t : Nat) : Nat × Nat :=
  match path.find? fun p => p.2 ≤ t with
  | some p => (p.1, t - p.2)
  | none => (0, t)

/-- R578: one cycle of the pass over the words due while a trap held the core; `none` where the word due cannot be read. -/
def State.passCycle (s : State) (n t : Nat) : Option State :=
  let (b, off) := blockAt s.stall.path t
  let c := s.core n
  let s := if off = 0 then s.setCore n { c with widx := 0, left := 0, ranOut := false } else s
  let c := s.core n
  let next : Option Core :=
    if c.left ≠ 0 then some { c with first := false }
    else if (s.coreBlk n b).wcnt ≤ c.widx then some { c with cur := none, first := false, ranOut := true }
    else match s.nextOp n b with
      | .inl (w, c) => some (c.start w)
      | .inr _ => none
  match next with
  | none => none
  | some c =>
    let s := s.setCore n c
    match c.cur with
    | none => some s
    | some w =>
      let sel := { c with acts := false }.selected w (n % 8 = 0)
      let s := (List.range 4).foldl (fun s ch =>
        let cn := Chan.vault n ch
        if opVp w ch = 14 then (s.refreshSkip cn).skipSlot cn ((s.chan cn).refSlots % 16)
        else if opVp w ch = 15 then
          (s.modChan cn fun v => { v with scrSlots := v.scrSlots + 1 }).skipSlot cn ((s.chan cn).scrSlots % 16)
        else s.vpPass n ch w t) s
      let c := sel.foldl Core.agAdvance (s.core n)
      let s := s.setCore n { c with left := c.left - 1 }
      some (if c.first then s.copEnd n [] w else s)

/-- The pass from SCNT `t` over `k` bundles: the SCNT at which it stops short, if it does. -/
def State.passGo (s : State) (n : Nat) : Nat → Nat → State × Option Nat
  | 0, _ => (s, none)
  | k + 1, t => match s.passCycle n t with
    | some s => State.passGo s n k (t + 1)
    | none => (s, some t)

/-- R578: the whole pass of a core that a trap has held since bundle `d`. A core that passes them all rejoins the schedule; one that meets
a word it cannot read is held from there. -/
def State.passWords (s : State) (n d : Nat) : State :=
  let (s, stop) := s.passGo n (s.str.scnt.toNat - d) d
  let c := { s.core n with stepPois := true }
  let c := if stop.isNone ∧ s.str.off = 0 then { c with widx := 0, left := 0, ranOut := false } else c
  let s := s.setCore n c
  s.setStall { s.stall with held := s.stall.held.filterMap fun p => if p.1 ≠ n then some p else stop.map fun t => (n, t) }

/-- A core that a trap still holds detects it again (R109): the request, and the record that waits for the freeze. A word that can now be
read lets the core pass on. -/
def State.retrap (s : State) (n d : Nat) : State :=
  match s.nextOp n (blockAt s.stall.path d).1 with
  | .inl _ => s.passWords n d
  | .inr (cause, i) =>
    let s := s.request 5 (halfOfCore n) n
    s.setStall { s.stall with traps := s.stall.traps ++ [{ core := n, cause := cause, addr := wordAddr n i, scnt := d, raised := s.cc }] }

/-- The held cores whose trap no request stands for: STREAM_RESUME has released it without repairing them. -/
def State.retraps (s : State) : State :=
  s.stall.held.foldl (fun s p => if s.requested 5 p.1 then s else s.retrap p.1 p.2) s

/-- STREAM_RESUME prepares the trapping core (R108): whether it met an uncorrectable word, which traps again. -/
def State.refetch (s : State) : Bool × State :=
  let info := s.rget .STR_TRAPINFO
  let n := bits info 15 6
  let cause := bits info 3 0
  let addr := s.rget .STR_TRAPADDR
  let due := s.rget .STR_TRAPSCNT
  let i := (addr - wordAddr n 0) / 16
  let again (s : State) (j cause : Nat) : Bool × State :=
    let t := s.dueOf n j
    (true, (s.setStall { s.stall with traps := s.stall.traps ++
      [{ core := n, cause := cause, addr := wordAddr n j, scnt := t, raised := s.cc }] }).recordTraps)
  let held := (s.stall.held.find? fun p => p.1 = n).map (·.2)
  let d := held.getD due
  let done (s : State) : Bool × State := match held with
    | some d =>
      let s := s.passWords n d
      match s.stall.held.find? fun p => p.1 = n with
      | some p => (true, (s.retrap n p.2).recordTraps)
      | none => (false, s)
    | none => (false, s)
  if cause = 2 then
    let (s, bad) := s.reloadResident n
    match bad with
    | some j => again s j 2
    | none => done s
  else
    let c := s.core n
    let flying := c.evts.flatMap fun e => match e.2 with
      | .fetch l => l
      | _ => []
    let keep := if cause = 1 then (c.fq ++ flying).takeWhile fun w => !(w.1 = i && w.2.isNone) else []
    let c := { c with evts := c.evts.filter fun e => match e.2 with
      | .fetch _ => false
      | _ => true }
    let s := s.setCore n { c with fq := [] }
    let stop := max (d + 64) (s.str.scnt.toNat + 40)
    let (ws, p, s) := State.refetchGo n (s.segNword n) (s.segFwrap n) stop (s.resRanges n) 1024 i keep s
    let s := s.setCore n (({ s.core n with fq := keep, fptr := p } : Core).queue (ws.drop keep.length))
    match ws.find? fun w => w.2.isNone with
    | some (j, _) => again s j 1
    | none => done s

/-- The holds of the cores that were not refetched: each passes over its words as far as it can read them, and traps again with the next
bundle where it cannot (R109). -/
def State.unhold (s : State) (n : Nat) : State :=
  (s.stall.held.filter fun p => p.1 ≠ n).foldl (fun s p => s.passWords p.1 p.2) s

end Sys2Proof.Machine
end

