-- ==== Sys2Proof/Machine/Image.lean ====
section
/-!
DEFINITION. STREAM_LOAD (R55 to R60, R83 to R85, R314, R381): the checks of the image, each answering the device address of its first
failing byte range, or nothing.
-/
namespace Sys2Proof.Machine

/-- The first failing address of a list of conditions in order. -/
def firstFail : List (Bool × Nat) → Option Nat
  | [] => none
  | (ok, a) :: l => if ok then firstFail l else some a

/-- Read bytes of a memory channel word by word: the bytes, or the address of the first word that is absent, uncorrectable or
poisoned (R60). `off` and `n` are multiples of 32. -/
def State.cleanBytes (s : State) (c : Chan) (off n : Nat) : List Byte ⊕ Nat :=
  (List.range (n / 32)).foldr (fun i r =>
    let w := (c.base + off) / 32 + i
    let d := (s.decodeWord c.nc w (s.erasures c)).1
    if !s.chPresent c (off + 32 * i) ∨ d.any (·.isNone) then .inr (32 * w)
    else match r with
      | .inr a => .inr a
      | .inl bs => .inl (d.map (fun b => b.getD 0) ++ bs)) (.inl [])

/-- A field of bytes. -/
def fieldOf (bs : List Byte) (o n : Nat) : Nat := leNat ((bs.drop o).take n)

/-- Bytes with four of them taken as zero (R56). -/
def zeroCrc (bs : List Byte) : List Byte := bs.take 60 ++ [0, 0, 0, 0] ++ bs.drop 64

/-- The bytes of a controller table that its CRC covers (R58). -/
def State.ctlCovered (s : State) (h : Nat) : List Byte :=
  let nblk := s.nat (ctlAddr h 20) 2
  s.bytes (ctlAddr h 0) 64 ++ s.bytes (ctlAddr h 0x1000) (16 * min nblk 4096)

/-- Check 1 of a controller table. -/
def State.ctlCheck (s : State) (h id : Nat) : Option Nat :=
  let f (o n : Nat) := s.nat (ctlAddr h o) n
  firstFail [
    (f 0 4 = 0x53474332, ctlAddr h 0), (f 4 4 = 1, ctlAddr h 4), (f 8 8 = id, ctlAddr h 8),
    (1 ≤ f 20 2 && f 20 2 ≤ 4096, ctlAddr h 20), (1 ≤ f 22 2 && f 22 2 ≤ 1024, ctlAddr h 22),
    (f 40 4 < f 16 4, ctlAddr h 40), (f 60 4 = crc32 (zeroCrc (s.ctlCovered h)), ctlAddr h 60)]

/-- Check 1 of a core segment. -/
def State.segCheck (s : State) (n id : Nat) : Option Nat :=
  let c := Chan.vault n 3
  match s.cleanBytes c 0x1C00000 64 with
  | .inr a => some a
  | .inl hd =>
    let f (o k : Nat) := fieldOf hd o k
    match firstFail [
      (f 0 4 = 0x53474331, regionAddr n 0), (f 4 4 = 1, regionAddr n 4), (f 8 8 = id, regionAddr n 8),
      (1 ≤ f 16 4 && f 16 4 ≤ 258048, regionAddr n 16), (f 20 4 < f 16 4, regionAddr n 20)] with
    | some a => some a
    | none =>
      let k := 16 * f 16 4
      match s.cleanBytes c 0x1C00000 (0x10000 + (k + 31) / 32 * 32) with
      | .inr a => some a
      | .inl bs => if f 60 4 = crc32 (zeroCrc (bs.take (0x10000 + k))) then none else some (regionAddr n 60)

/-- Check 1 of a command segment (R314). -/
def State.cmdCheck (s : State) (k id : Nat) : Option Nat :=
  let c := Chan.side k 31
  let off := cmdSegAddr k 0 - sideAddr k 31 0
  match s.cleanBytes c off 64 with
  | .inr a => some a
  | .inl hd =>
    let f (o n : Nat) := fieldOf hd o n
    match firstFail [
      (f 0 4 = 0x53474333, cmdSegAddr k 0), (f 4 4 = 1, cmdSegAddr k 4), (f 8 8 = id, cmdSegAddr k 8),
      (f 16 1 = k, cmdSegAddr k 16), (f 20 2 = s.ctlNblk, cmdSegAddr k 20)] with
    | some a => some a
    | none =>
      match s.cleanBytes c off 0x100000 with
      | .inr a => some a
      | .inl bs => if f 60 4 = crc32 (zeroCrc bs) then none else some (cmdSegAddr k 60)

/-- R381: NOC_MAPDIG of a half: a logical cluster that no physical cluster carries is failed. -/
def State.mapDigest (s : State) (h : Nat) : Nat :=
  crc64 ((List.range 64).map fun j =>
    match s.physOf (64 * h + j) with
    | some pi => BitVec.ofNat 8 (pi % 66)
    | none => 0xFF)

/-- Check 1 of a router window (R379 to R381). -/
def State.winCheck (s : State) (h p id : Nat) : Option Nat :=
  let a := routerWin h p
  let f (o n : Nat) := s.nat (a o) n
  firstFail ([
    (decide (f 0 4 = 0x53474334), a 0), (decide (f 4 4 = 1), a 4), (decide (f 8 8 = id), a 8),
    (decide (f 16 8 = s.mapDigest h), a 16), (decide (f 60 4 = crc32 (zeroCrc (s.bytes (a 0) 0x10000))), a 60)])

/-- The first answer of a list of checks. -/
def firstSome (l : List Nat) (f : Nat → Option Nat) : Option Nat := l.findSome? f

/-- Check 1: every part in order; the segments of failed cores and the windows of dark routers are skipped. -/
def State.check1 (s : State) (id : Nat) : Option Nat :=
  (s.ctlCheck 0 id).orElse fun _ => (s.ctlCheck 1 id).orElse fun _ =>
    (firstSome ((List.range 1024).filter fun n => !s.failed n) fun n => s.segCheck n id).orElse fun _ =>
      (firstSome (List.range 8) fun k => s.cmdCheck k id).orElse fun _ =>
        firstSome ((List.range 132).filter fun pi => s.fget F.PWR_CLSTAT_STATE pi ≠ CL.DARK) fun pi => s.winCheck (pi / 66) (pi % 66) id

/-- Check 2: the two controller tables are identical in the covered bytes. -/
def State.check2 (s : State) : Option Nat :=
  let n := s.ctlNblk
  let at_ (i : Nat) : Nat := if i < 64 then i else 0x1000 + (i - 64)
  ((List.range (64 + 16 * n)).find? fun i => s.byte (ctlAddr 0 (at_ i)) ≠ s.byte (ctlAddr 1 (at_ i))).map fun i => ctlAddr 1 (at_ i)

/-- R83 to R87: a block entry is well formed. -/
def State.blockOk (s : State) (cores : List Nat) (b : Nat) : Bool :=
  let k := s.ctlBlk b
  let n := s.ctlNblk
  let resident := cores.all fun c => (s.coreBlk c k.alt).res
  let line := decide (k.csel ≤ 15)
  let csel := line || decide (k.csel = 16) || (decide (32 ≤ k.csel) && decide (k.csel ≤ 47))
  k.resv = 0 && decide (1 ≤ k.len) && decide (k.kind ≤ 4) && decide (k.next < n) && decide (k.alt < n) &&
    (k.kind ≠ 1 || (csel && decide ((if line then 81 else 16) ≤ k.len))) && ((k.kind ≠ 1 && k.kind ≠ 2) || resident)

/-- Check 3. -/
def State.check3 (s : State) : Option Nat :=
  let cores := (List.range 1024).filter fun n => !s.failed n
  ((List.range s.ctlNblk).find? fun b => !s.blockOk cores b).map fun b => ctlAddr 0 (0x1000 + 16 * b)

/-- Check 4 of one core: NRES, and the places of the resident blocks. -/
def State.residentOk (s : State) (n : Nat) : Bool :=
  let rs := s.resRanges n
  decide (s.decodedNat (regionAddr n 24) 4 ≤ 3072) && rs.zipIdx.all fun p =>
    decide (p.1.lboff + p.1.wcnt ≤ 3072) && rs.zipIdx.all fun q =>
      p.2 = q.2 || decide (p.1.lboff + p.1.wcnt ≤ q.1.lboff) || decide (q.1.lboff + q.1.wcnt ≤ p.1.lboff)

def State.check4 (s : State) : Option Nat :=
  (((List.range 1024).filter fun n => !s.failed n).find? fun n => !s.residentOk n).map fun n => regionAddr n 0

/-- R60: the address of the first failing byte range of the image. -/
def State.imageFault (s : State) (id : Nat) : Option Nat :=
  (s.check1 id).orElse fun _ => s.check2.orElse fun _ => s.check3.orElse fun _ => s.check4

/-- What the reads of check 1 do to the channels they reach (R202): the covered bytes of each core segment, then of each command segment, up to
the first part that fails; of a part whose header fails, the header. -/
def State.imageReads (s : State) (id : Nat) : State :=
  let part (p : Bool × State) (c : Chan) (off : Nat) (fault : Option Nat) (n : Nat) : Bool × State :=
    if p.1 then p
    else match fault with
      | some a => (true, p.2.scanWords c off (if a < c.base + off + 60 then 64 else n))
      | none => (false, p.2.scanWords c off n)
  let segs (p : Bool × State) : Bool × State := ((List.range 1024).filter fun n => !s.failed n).foldl (fun p n =>
    part p (.vault n 3) 0x1C00000 (s.segCheck n id) ((0x10000 + 16 * s.segNword n + 63) / 64 * 64)) p
  let cmds (p : Bool × State) : Bool × State := (List.range 8).foldl (fun p k =>
    part p (.side k 31) (cmdSegAddr k 0 - sideAddr k 31 0) (s.cmdCheck k id) 0x100000) p
  if ((s.ctlCheck 0 id).or (s.ctlCheck 1 id)).isSome then s else (cmds (segs (false, s))).2

/-- An accepted STREAM_LOAD: its status. -/
def State.loadImage (s : State) (id : Nat) : Nat × State :=
  let s := (((s.rset .STR_ERRADDR 0 0 0).rset .STR_ERRSTAT 0 0 0).rset .STR_ERRCNT 0 0 0)
  let s := ((s.rset .STR_TRAPADDR 0 0 0).rset .STR_TRAPSCNT 0 0 0).rset .STR_TRAPINFO 0 0 0
  let fault := s.imageFault id
  let s := s.imageReads id
  match fault with
  | some a => (ST.IMAGE, (s.endLeases.enter .idle).errSTR a ST.IMAGE 6)
  | none => (ST.OK, (s.enter .loaded).rset .STR_IMAGE 0 0 id)

end Sys2Proof.Machine
end

