-- ==== Sys2Proof/Machine/Stream.lean ====
section
/-!
DEFINITION. The stream commands of the host (R104 to R111): STREAM_LOAD, STREAM_START, START_CODE, STREAM_HALT and STREAM_RESUME, and
what a block boundary does in every controller.
-/
namespace Sys2Proof.Machine

/-! ### STREAM_START -/

/-- Every counter that a block's chapter has STREAM_START clear. -/
def State.clearCounters (s : State) : State :=
  [Reg.COR_RESCNT, .COR_LOSTPREC, .COR_ACCOVF, .COR_SCRCORR, .COR_PPOIS, .COR_GRESCNT, .ARR_ACTCNT, .ARR_MVCNT, .VLT_FRZCNT,
   .KVP_APPCNT, .KVP_COWCNT, .KVP_TRUNCCNT, .KVP_GTRUNC, .WVL_DESCCNT, .WVL_DROPCNT, .WVL_CANCCNT, .WVL_HOSTCNT,
   .SSK_FRZCNT, .SSK_FILLCNT, .SSK_REDCNT, .SSK_RESCNT, .SCB_LEASECNT, .SCB_REFUSECNT, .SCB_LEASEDCNT, .SCB_SKIPCNT, .SCB_RESCNT,
   .NOC_COLCNT, .NOC_MISSCNT, .NOC_DEADCNT, .NOC_HOSTCNT, .ITL_STALLCNT, .STR_STALLCNT, .STR_STALLNUM, .STR_GATECNT, .STR_STEP].foldl State.rclear s

/-- R105: a core as STREAM_START leaves it: templates and resident blocks loaded, predicates, fetch queue, top-k list and sequencing
empty, stationary sets zero (R73, R77, R146, R170, R173). Vector registers, vector buffer and accumulators keep their contents. -/
def State.startCore (s : State) (n : Nat) : State :=
  let c := s.core n
  let (tb, s) := (List.range 320).foldl (fun (p : Line × State) i =>
    let (d, _, s) := p.2.readLine (.vault n 3) (0x1C00000 + 0x9000 + 64 * i)
    (p.1 ++ d, s)) (([] : Line), s)
  let rs := s.resRanges n
  let mv : Mv := { ({} : Mv) with buf := c.mv.buf, accs := c.mv.accs }
  let (tbytes, s) := s.reveal tb
  let tpl := smPuts 0 [] (tbytes.zipIdx.map fun p => (p.2, p.1))
  let fptr := (nextWord rs (s.segNword n) (s.segFwrap n) 8192 0).getD 0
  let c' : Core := { ({} : Core) with vreg := c.vreg, cmpFlag := c.cmpFlag, mv := mv, tpl := tpl, fptr := fptr }
  ((s.setCore n c').reloadResident n).1

/-- R170, R173: STREAM_START makes set A of every array active and leaves its ramp OFF, those of failed cores too. -/
def State.startArray (s : State) (n : Nat) : State := s.rset .ARR_STAT n 0 (s.rget .ARR_STAT n &&& 0x13000)

/-- The cores that physical clusters carry. A failed one fetches and executes nothing, but its port keeps stepping (R32, R383). -/
def State.liveCores (s : State) : List Nat := (List.range 1024).filter fun n => (s.physOf (clusterOf n)).isSome

/-- R228: a channel as scheduled mode finds it: banks closed, slots counted from 0. -/
def State.startChans (s : State) : State :=
  let f (v : VCh) : VCh := { v with banks := [], opens := [], writes := [], refSlots := 0, scrSlots := 0, round := false, returned := false }
  { s with vch := (s.vch.map fun p => (p.1, f p.2)).filter fun p => decide (p.2 ≠ ({} : VCh)) }

/-- The link holds no line of an earlier run. -/
def State.startLink (s : State) : State :=
  let dir (x : ItlDir) : ItlDir := { x with q := [], waiting := [], seen := [], replay := x.replay.map fun f => { f with lines := [] } }
  let mod (x : Itl) : Itl := { x with dirs := x.dirs.map fun q => (q.1, dir q.2) }
  { s with flights := [], sports := [], itl := s.itl.map fun p => (p.1, mod p.2) }

/-- R104: the first refusal of a STREAM_START, if any. -/
def State.startRefusal (s : State) (force : Bool) : Option Nat :=
  let f (o n : Nat) := s.nat (ctlAddr 0 o) n
  if s.life.unlocked then some ST.CLOCK
  else if (s.str.st ≠ .loaded ∧ s.str.st ≠ .halted) ∨ s.life.molt.isSome ∨ (s.standby ∧ s.cmode = 2 ∧ s.pst = PS.LINKED) then some ST.STATE
  else if min 16 (f 25 1) < s.linkClass then some ST.LINKCLASS
  else if (List.range 8).any fun i => (f 26 1).testBit i && !s.licensed i then some ST.LICENCE
  else if !force ∧ f 32 8 ≠ s.chmapDigest then some ST.CHMAP
  else if s.rget .BBR_PENDING ≠ 0 then some ST.BBR_PENDING
  else none

/-- R458: whether the device is a REPLAY standby. -/
def State.replayStandby (s : State) : Bool := s.standby && s.cmode = 1 && s.pst ≠ PS.OFF

/-- R105 steps 1 to 3. -/
def State.startStream (s : State) : State :=
  let held := s.replayStandby
  let g := s.stall
  let s := s.endLeases.setStall {}
  let s := s.serveAll
  let s := s.setStr { s.str with st := .running }
  let s := (s.clearCounters.rset .STR_OUTSTEP 0 0 (2 ^ 64 - 1)).fset F.PWR_MEAS_PMAX 0 0 0
  let s := s.startChans.startLink
  let s := s.wvReset
  let s := { s with sae := [], saeLapse := false }
  let s := s.sideStart
  let s := s.liveCores.foldl (fun s n => let s := s.startArray n; if s.failed n then s.setCore n {} else s.startCore n) s
  let s := s.setCic { s.cic with polls := 0, wrote := 0 }
  let o := s.str
  let x : Stream := { ({} : Stream) with st := .running, starting := true, startHeld := held, hostLatch := o.hostLatch, present := o.present, pendingMbx := o.pendingMbx }
  (s.setStr x).setStall { ({} : Stall) with lanes := g.lanes, laneBad := g.laneBad, gateNew := g.gateNew }

/-- R458: a held start whose lowest record is not the one it needs breaks the pair. -/
def State.startRecord (s : State) : State :=
  if s.str.startHeld ∧ s.cmode = 1 then
    match s.cic.recs.head? with
    | some r => if r.step = (s.rget .CIC_APPLIED + 1) % 2 ^ 64 then s else s.pairBreaks BC.CONFIG
    | none => s
  else s

/-- A block begins at SCNT `t`: the side stacks and the STACK ports start its lists, every core switches to its words. -/
def State.blockEntry (s : State) (b t : Nat) : State :=
  let s := s.setStr { s.str with blk := b, off := 0, cond := 0 }
  let s := s.setStall { s.stall with path := (b, t) :: s.stall.path.take 70 }
  let s := s.liveCores.foldl (fun s n =>
    if s.stall.held.any fun p => p.1 = n then s
    else
      let c := s.core n
      if c.widx = 0 ∧ c.left = 0 ∧ !c.ranOut then s else s.setCore n { c with widx := 0, left := 0, ranOut := false }) s
  (s.sideBlock b t).stackBlock b

/-- R105 steps 4 and 5: H0's controller sends the start code at a clock-frame boundary once the 768 cc of loading are over; SCNT 0 comes
48 cc later, with the first gating window. -/
def State.startCode (s : State) : State :=
  let since := match s.cmdOf OP.STREAM_START with
    | some c => c.since
    | none => s.cc
  let f0 := (max s.cc (since + 768) + 11) / 12 * 12
  let s := { s with cc := f0 + 48 }
  let s := s.setStr { s.str with starting := false, scnt := 0, stepBase := 0 }
  let s := s.setStall { s.stall with windows := true }
  let s := (s.openWindow s.cc).blockEntry 0 0
  s.complete OP.STREAM_START ST.OK

/-! ### STREAM_HALT and STREAM_RESUME -/

/-- R111: STREAM_HALT. -/
def State.haltCmd (s : State) (mode : Nat) : State × Answer :=
  if 2 ≤ mode then (s, some (ST.DESC, []))
  else match s.str.st with
  | .running | .stalled =>
    if mode = 1 then ((s.request 6 0 0).request 6 1 0, none)
    else
      let b := s.str.stepBase + s.ctlStepLen
      let at_ := if s.str.scnt.toNat + 24 < b then b else b + s.ctlStepLen
      (s.setStr { s.str with haltStep := some ((s.str.haltStep).getD at_) }, none)
  | .trapped =>
    let r (h : Nat) : StallReq := { src := 6, half := h, unit := 0, raised := s.cc - 24 }
    let s := s.setStall { s.stall with reqs := s.stall.reqs ++ [r 0, r 1] }
    let s := s.halt false false
    (s, some (ST.OK, s.haltBody))
  | .halted =>
    if s.flag F.CIC_STAT_PACED then
      let s := s.fset F.CIC_STAT_PACED 0 0 0
      (s, some (ST.OK, s.haltBody))
    else (s, some (ST.STATE, []))
  | _ => (s, some (ST.STATE, []))

/-- The stream resumes from TRAPPED or HALTED: whether a refetch met an uncorrectable word (R108). A trap that was detected within the
horizon of a halt has not been recorded; its request holds on, and the stream is TRAPPED after the resumption. -/
def State.resume (s : State) : Bool × State :=
  let trapped := s.stall.recorded.isSome
  let (bad, s) := if trapped then s.refetch else (false, s)
  if bad then (true, s)
  else
    let s := if trapped then s.unhold (s.fget F.STR_TRAPINFO_CORE) else s
    let new := s.stall.traps.map (·.core)
    let s := s.setStall { s.stall with recorded := none }
    let s := s.release fun r => (r.src = 5 && !new.contains r.unit) || r.src = 6
    (false, s.setStr { s.str with st := .stalled, atStep := false })

/-- STREAM_RESUME (R108, R110, R457). -/
def State.resumeCmd (s : State) : State × Answer :=
  if s.flag F.CIC_STAT_PACED then (s, some (ST.PAIR_WAIT, []))
  else if s.str.st = .trapped ∨ (s.str.st = .halted ∧ !s.str.ended) then
    match s.resume with
    | (true, s) => (s, some (ST.UNCORR, []))
    | (false, s) => (s, none)
  else (s, some (ST.STATE, []))

/-! ### The commands -/

/-- STREAM_LOAD. -/
def execStreamLoad (h : EcpHdr) (id : BitVec 64) (s : State) : Host.Outcome State Fault Refusal :=
  s.when (s.hears h.qp) fun s => s.ecp h OP.STREAM_LOAD GRP_STREAM false false [] [] fun s =>
    if (s.str.st = .idle ∨ s.str.st = .loaded ∨ s.str.st = .halted) ∧ s.life.molt.isNone then
      let (st, s) := s.loadImage id.toNat
      (s, some (st, []))
    else (s, some (ST.STATE, []))

/-- STREAM_START. -/
def execStreamStart (h : EcpHdr) (force : Bool) (s : State) : Host.Outcome State Fault Refusal :=
  s.when (s.hears h.qp) fun s => s.ecp h OP.STREAM_START GRP_STREAM false false [] [] fun s =>
    match s.startRefusal force with
    | some st => (s, some (st, []))
    | none => (s.startStream.startRecord, none)

/-- START_CODE: once the stream is starting and no record holds it. -/
def execStartCode (s : State) : Host.Outcome State Fault Refusal :=
  s.when (s.powered && s.str.st = .running && s.str.starting && !s.str.startHeld && s.stall.lanes % 4 ≠ 0) State.startCode

/-- STREAM_HALT. -/
def execStreamHalt (h : EcpHdr) (mode : BitVec 8) (s : State) : Host.Outcome State Fault Refusal :=
  s.when (s.hears h.qp) fun s => s.ecp h OP.STREAM_HALT GRP_STREAM false true [] [] fun s => s.haltCmd mode.toNat

/-- STREAM_RESUME. -/
def execStreamResume (h : EcpHdr) (s : State) : Host.Outcome State Fault Refusal :=
  s.when (s.hears h.qp) fun s => s.ecp h OP.STREAM_RESUME GRP_STREAM false false [] [] State.resumeCmd

/-- FREEZE_BEGIN. -/
def execFreezeBegin (s : State) : Host.Outcome State Fault Refusal := s.when (s.freezeBegins && s.powered) State.freezeBegin

/-- STALL_RELEASE: the request of a source, half and unit. -/
def execStallRelease (src : Nat) (half : Nat) (unit : Nat) (s : State) : Host.Outcome State Fault Refusal :=
  s.when (s.releases src half unit && s.powered) fun s => s.stallRelease src half unit

/-- FREEZE_LIFT. -/
def execFreezeLift (s : State) : Host.Outcome State Fault Refusal := s.when (s.liftReady && s.powered) State.freezeLift

/-- GATING_WINDOW. -/
def execGatingWindow (s : State) : Host.Outcome State Fault Refusal := s.when (s.windowDue && s.powered) State.gatingWindow

/-- STALL_TIMEOUT. -/
def execStallTimeout (s : State) : Host.Outcome State Fault Refusal :=
  s.when (s.stallTooLong && s.powered) fun s => s.toFaulted.raise .stallTimeout 0 0 0 (s.fget F.STR_STALLMAX_LIMIT)

/-- DEBUG_STEP: a write of STEPN. -/
def execDebugStep (n : BitVec 16) (s : State) : Host.Outcome State Fault Refusal := s.when s.ready fun s => s.debugStep n.toNat

/-- DEBUG_REFREEZE: after the last stepped bundle. -/
def execDebugRefreeze (s : State) : Host.Outcome State Fault Refusal :=
  s.when (s.powered && s.str.st = .running && s.stall.frz.isNone && s.stall.debugLeft = some 0) State.debugRefreeze

/-- MAILBOX_WRITE: bytes at an offset of an input slot, as a line of an RDMA WRITE or a forwarded one brings them (R89, R91). An access
that is not 8-byte aligned, of 8 to 64 bytes and within one slot is dropped and logged; one to a REPLAY standby's mailbox is
dropped with ST_STATE (R456). -/
def State.mailboxWrite (s : State) (slot off : Nat) (d : List Byte) : State :=
  let a := inSlot slot + off
  if off % 8 ≠ 0 ∨ d.length % 8 ≠ 0 ∨ d.length < 8 ∨ 64 < off + d.length then s.errSTR a ST.UNALIGNED 7
  else if s.replayStandby then s.errCIC a ST.STATE 2
  else s.mbxWrite slot off d

def execMailboxWrite (slot : Fin 1024) (off : Fin 64) (d : List Byte) (s : State) : Host.Outcome State Fault Refusal :=
  s.when s.ready fun s => s.mailboxWrite slot off d

/-- MAILBOX_PRESENT: the pending entry of a slot, once its SCNT has come. -/
def execMailboxPresent (slot : Fin 1024) (s : State) : Host.Outcome State Fault Refusal :=
  let p? := s.str.pendingMbx.find? fun p => p.slot = slot.val && decide (p.due ≤ s.str.scnt.toNat)
  s.when p?.isSome fun s => match p? with
    | some p => s.mbxTake p
    | none => s

end Sys2Proof.Machine
end

