-- ==== Sys2Proof/Machine/Power.lean ====
section
/-!
DEFINITION. Power delivery and cooling (chapter 13): rails, regulators, droop records, Chrysalis, the thermal model, coolant telemetry,
the power cap and emergency shutdown. What the board, the diodes and the meters show is the commands' operands.
-/
namespace Sys2Proof.Machine

/-- The always-on domain runs and the device is out of reset: the system controllers serve what they measure. -/
def State.awake (s : State) : Bool := s.life.aon && s.life.resetN

/-! ### Gating for power (R177, R494) -/

/-- STR_GATE.GATE_PWR takes the largest of g_law, g_t and the floor. -/
def State.gatePwr (s : State) : State :=
  let g := max (s.fget F.PWR_GATE_GLAW) (max (s.fget F.PWR_GATE_GT) (s.fget F.PWR_GATE_FLOOR))
  (s.fset F.STR_GATE_GATE_PWR 0 0 g).gateChange

/-- The floor of R177: 4 while a mapped cluster is in THREE; ARR_STAT.CAPPED shows it for the cores of such a cluster. -/
def State.floorUpdate (s : State) : State :=
  let three := (List.range 128).filter fun k => (s.physOf k).isSome && s.clState k = CL.THREE
  let s := (List.range 128).foldl (fun s k =>
    let v := if three.contains k then 1 else 0
    if s.fget F.ARR_STAT_CAPPED (8 * k) = v then s
    else (List.range 8).foldl (fun s i => s.fset F.ARR_STAT_CAPPED (8 * k + i) 0 v) s) s
  (s.fset F.PWR_GATE_FLOOR 0 0 (if three = [] then 0 else 4)).gatePwr

/-! ### Rails (R469, R472) -/

/-- The static range of a rail in mV, by k of R469; `none` VDD_AON. -/
def railRange : Option Nat → Nat × Nat
  | none => (730, 770)
  | some 0 => (1770, 1830)
  | some 1 => (1750, 1850)
  | some 2 => (1020, 1080)
  | some 3 => (730, 770)
  | some 4 => (830, 870)
  | some 5 => (1750, 1850)
  | some _ => (1070, 1130)

/-- The range of the rail with a UNIT of EV_RAIL: 0 VDD_AON, else 1 + 2k + h. -/
def railOf (unit : Nat) : Nat × Nat := if unit = 0 then railRange none else railRange (some ((unit - 1) / 2))

/-- One rail measured: out of range for more than 100 µs raises EV_RAIL once. -/
def State.railRead (s : State) (unit mv : Nat) : State :=
  let r := railOf unit
  let others := s.pow.rails.filter fun p => p.1 ≠ unit
  if r.1 ≤ mv ∧ mv ≤ r.2 then { s with pow := { s.pow with rails := others } }
  else
    let p := (s.pow.rails.find? fun p => p.1 = unit).getD (unit, s.cc, false)
    let due := !p.2.2 && decide (p.2.1 + 96000 < s.cc)
    let s := { s with pow := { s.pow with rails := others ++ [(unit, p.2.1, p.2.2 || due)] } }
    if due then s.raise .rail unit 0 0 mv (if unit = 0 then 0 else (unit - 1) % 2) else s

/-! ### Black-box entries of a power failure and a shutdown -/

/-- The totals that an SVCTIME entry carries (R526, R548). -/
def State.svcEntry (s : State) : BbrEntry :=
  s.bbrEntry 9 1 0 (leBytes 8 (s.rget .LIC_SVCTIME) ++ (List.range 4).flatMap fun k => leBytes 4 (smGet 0 s.totals k))

/-- Set bits of byte `i` of the payload of a POWER_FAIL entry that is queued or being programmed (R499). -/
def State.patchPowerFail (s : State) (cause : Nat) : State :=
  let pay (p : List Byte) : List Byte := p.set 1 ((p.getD 1 0) ||| BitVec.ofNat 8 cause)
  let q := s.bbr.queue.map fun e => if e.type = BBR_POWER_FAIL then { e with payload := pay e.payload } else e
  let cur := s.bbr.cur.map fun c =>
    if leNat ((c.2.1.drop 8).take 2) = BBR_POWER_FAIL then
      let b := (c.2.1.set 33 ((c.2.1.getD 33 0) ||| BitVec.ofNat 8 cause)).take 60
      (c.1, b ++ leBytes 4 (crc32 b), c.2.2)
    else c
  { s with bbr := { s.bbr with queue := q, cur := cur } }

/-- A Molt in progress stops where it is, its commit too; it counts as interrupted (R524). A HALF_RESET leaves nothing to finish. -/
def State.breakMolt (s : State) : State :=
  match s.life.molt with
  | none => s
  | some m =>
    let i := if m.resetOnly ∨ s.life.interrupted.contains m.half then s.life.interrupted else s.life.interrupted ++ [m.half]
    ({ s with life := { s.life with molt := none, interrupted := i } }.fset F.MLT_STAT_BUSY m.half 0 0).commitBreak m

/-! ### Power failure (R473, R499) -/

/-- Input power fails: `cause` bits 0 and 1 VDD_IN of H0 and H1, bit 2 PWRGOOD; the two voltages in mV. -/
def State.powerFails (s : State) (cause v0 v1 : Nat) : State :=
  let s := s.raise .powerFail 0 0 cause
  let s := s.notice 1
  let s := if s.flag F.PWR_SHUT_LATCH then s
    else
      let e := s.bbrEntry BBR_POWER_FAIL 6 0 (leBytes 1 cause ++ leBytes 1 0 ++ leBytes 2 s.bbr.queue.length ++ leBytes 2 v0 ++ leBytes 2 v1)
      (s.bbrPut e).bbrPut s.svcEntry
  let s := s.breakMolt
  { s with life := { s.life with powerFailed := true, pwrgood := s.life.pwrgood && !cause.testBit 2 } }

/-! ### Regulators (R475 to R477) -/

/-- Working regulators of a physical cluster. -/
def State.working (s : State) (pi : Nat) : Nat :=
  let f := s.fget F.PWR_CLSTAT_ODRFAIL pi
  ((List.range 4).filter fun r => !f.testBit r).length

/-- A cluster goes DARK (R476, R477). -/
def State.goDark (s : State) (pi : Nat) (vret : Bool) : State :=
  let v := if vret then 1 else 0
  let s := (s.fset F.PWR_CLSTAT_STATE pi 0 CL.DARK).fset F.PWR_CLSTAT_VRET pi 0 v
  let s := { s with pow := { s.pow with phases := s.pow.phases.filter fun p => p.1 ≠ pi } }
  let s := s.raise .clusterDark pi 0 v 0 (pi / 66)
  match s.logOf pi with
  | none => s
  | some k => (List.range 8).foldl (fun s i =>
      let n := 8 * k + i
      let s := (s.failCore n FC.DARK).loseRange (0x4000000000 + n * 0x200000) 0x180000
      (List.range 4).foldl (fun s c =>
        let s := s.modChan (.vault n c) fun v => { v with merge := [], rwq := [] }
        if vret then s else s.loseRange (Chan.vault n c).base 0x2000000) s) s

/-- The state of a cluster whose logic is on or about to be, by its working regulators. -/
def State.onState (s : State) (pi : Nat) : Nat := if s.working pi = 4 then CL.ON else CL.THREE

/-- Regulator `r` of a physical cluster fails; `vret`: VDD_VLT at the cluster's power switch is within range. -/
def State.regulatorFail (s : State) (pi r : Nat) (vret : Bool) : State :=
  let s := s.fset F.PWR_CLSTAT_ODRFAIL pi 0 (s.fget F.PWR_CLSTAT_ODRFAIL pi ||| 2 ^ r)
  let s := s.raise .odrFail pi r 0 0 (pi / 66)
  let st := s.fget F.PWR_CLSTAT_STATE pi
  let s := if s.working pi ≤ 2 then (if st = CL.DARK then s else s.goDark pi vret)
    else if st = CL.ON then s.fset F.PWR_CLSTAT_STATE pi 0 CL.THREE else s
  s.floorUpdate

/-! ### Droop records (R478, R479) -/

/-- The droop monitor of a regulator sees a code below its record. -/
def State.droop (s : State) (pi r code : Nat) : State :=
  let old := s.fget F.PWR_VMIN_CODE pi r
  let s := (s.fset F.PWR_VMIN_CODE pi r code).fset F.PWR_VMIN_SCNT pi r (s.str.scnt.toNat % 2 ^ 48)
  let s := s.rset .PWR_VMINT pi r s.utime
  let ev := s.fget F.PWR_VMINCFG_EVTHR
  let bb := s.fget F.PWR_VMINCFG_BBTHR
  let s := if code < ev ∧ ev ≤ old then ((s.w1cMark .PWR_VMIN pi r (2 ^ 63)).fset F.PWR_VMIN_VALID pi r 1).raise .droop pi r 0 code (pi / 66) else s
  let key := 4 * pi + r
  let last := s.pow.droopBb.find? fun p => p.1 = key
  let late : Bool := match last with
    | some p => decide (p.2 + 960000000 ≤ s.cc)
    | none => true
  if code < bb ∧ bb ≤ old ∧ late then
    let s := { s with pow := { s.pow with droopBb := s.pow.droopBb.filter (fun (p : Nat × Nat) => p.1 ≠ key) ++ [(key, s.cc)] } }
    s.bbrPut (s.bbrEntry 1 3 (2 * (pi / 66)) (leBytes 2 0x0905 ++ leBytes 2 0 ++ leBytes 8 (srcUnit pi r 0 code)))
  else s

/-! ### Chrysalis (R480, R481) -/

/-- A phase of 20 µs begins. -/
def State.phaseBegin (s : State) (pi st : Nat) : State :=
  let s := s.fset F.PWR_CLSTAT_STATE pi 0 st
  { s with pow := { s.pow with phases := s.pow.phases.filter (fun p => p.1 ≠ pi) ++ [(pi, s.cc + 19200)] } }

/-- A write of PWR_CLCTL.CHRYS; the field is locked while the stream runs or is trapped (R21). -/
def State.chrysWrite (s : State) (pi : Nat) (on : Bool) : State :=
  let st := s.fget F.PWR_CLSTAT_STATE pi
  if s.locked then s
  else if on then
    if st = CL.ON ∨ st = CL.THREE then ((s.fset F.PWR_CLCTL_CHRYS pi 0 1).phaseBegin pi CL.ENTERING).floorUpdate else s
  else if st = CL.CHRYSALIS then (s.fset F.PWR_CLCTL_CHRYS pi 0 0).phaseBegin pi CL.LEAVING
  else s

/-- What of a core survives Chrysalis: templates, registers and accumulators, but no predicate, queue or pipeline. -/
def Core.asleep (c : Core) : Core :=
  { c with pred := 0, fq := [], evts := [], cur := none, left := 0, widx := 0, inj := [], ej := [],
           arr := { c.arr with side0 := {}, side1 := {}, rampI := 0 },
           mv := { c.mv with eq := [], sq := [], runs := [] } }

/-- The phase of a cluster that enters or leaves Chrysalis ends. -/
def State.phaseEnd (s : State) (pi : Nat) : State :=
  let st := s.fget F.PWR_CLSTAT_STATE pi
  let s := { s with pow := { s.pow with phases := s.pow.phases.filter fun p => p.1 ≠ pi } }
  if st = CL.ENTERING then
    let s := s.fset F.PWR_CLSTAT_STATE pi 0 CL.CHRYSALIS
    match s.logOf pi with
    | some k => (List.range 8).foldl (fun s i => s.setCore (8 * k + i) (s.core (8 * k + i)).asleep) s
    | none => s
  else if st = CL.LEAVING then ((s.fset F.PWR_CLSTAT_STATE pi 0 (s.onState pi)).floorUpdate).serveAll
  else s

/-! ### Emergency shutdown (R495 to R499) -/

/-- Temperatures in millionths of a degree, as registers hold them in 0.01 °C. -/
def toCenti (t : Int) : Nat := unsext 16 (t / 10000)
def ofCenti (v : Nat) : Int := sext 16 v * 10000

/-- The working temperatures over their hard limits: cause bits, and the first instance with its temperature. -/
def State.overHard (s : State) : Nat × Option (Nat × Nat) :=
  (List.range 136).foldl (fun p i =>
    let v := s.rget .THM_WORK i
    if v = 0 then p
    else
      let w := sext 16 (bits v 15 0)
      let wl := sext 16 (bits v 31 16)
      let lim (f : Fld) : Int := s.fget f * 100
      let c := if i < 128 then
          (if lim F.THM_LIMITS_HLOGIC ≤ w then 2 else 0) + (if lim F.THM_LIMITS_HVAULT ≤ wl then 4 else 0)
        else if lim F.THM_LIMITS_HSTACK ≤ w then 8 else 0
      if c = 0 then p
      else (p.1 ||| c, p.2.or (some (i, if c = 4 then unsext 16 wl else unsext 16 w)))) (0, none)

/-- R495: every fresh post over 100 ms reported a flow below 0.4 L/min. -/
def State.flowLow (s : State) : Bool := match s.pow.lowAt, s.pow.coolAt with
  | some a, some b => decide (a + 96000000 ≤ b)
  | _, _ => false

/-- The causes that hold, and what they record. -/
def State.shutCauses (s : State) : Nat × Option (Nat × Nat) :=
  let (c, i) := s.overHard
  (c + (if s.flowLow then 1 else 0), i)

/-- A module without its lines of DMA and CONTROL. -/
def dropHost (m : Nat × Itl) : Nat × Itl :=
  (m.1, { m.2 with dirs := m.2.dirs.map fun (d : Nat × ItlDir) => (d.1, { d.2 with vq := [], buf := [], asked := [], opened := [] }) })

/-- R496: the sequence of an emergency shutdown. -/
def State.shutdown (s : State) : State :=
  let (cause, inst) := s.shutCauses
  if cause = 0 ∨ s.flag F.PWR_SHUT_LATCH then s
  else if s.life.powerFailed then s.patchPowerFail cause
  else
    let (i, t) := inst.getD (0, 0)
    let s := s.raise .shutdown 0 0 cause
    let s := s.rset .PWR_SHUT 0 0 (1 + cause * 2 ^ 8 + t * 2 ^ 16 + i * 2 ^ 40)
    let s := s.notice 2
    let s := s.breakMolt
    let s := { s with life := { s.life with trip := true }, hq := [], rdreqs := [], cmds := [], ports := [],
                      itl := s.itl.map dropHost }
    let s := (List.range 8).foldl (fun s p => (s.fset F.ETH_STAT_LINK p 0 0).fset F.ETH_STAT_RATE p 0 0) s
    let s := (s.fset F.CIC_STAT_P6UP 0 0 0).fset F.CIC_STAT_P7UP 0 0 0
    let s := s.bbrPut (s.bbrEntry BBR_SHUTDOWN 6 0 (leBytes 1 cause ++ leBytes 1 i ++ leBytes 2 t ++ leBytes 2 (s.fget F.PWR_COOL_FLOW) ++
      leBytes 2 (s.fget F.PWR_COOL_INLET) ++ leBytes 2 (s.fget F.PWR_MEAS_PM) ++ leBytes 1 6))
    if s.str.st = .running && !s.str.starting && s.stall.frz.isNone then (s.request SRC_STOP 0 0).request SRC_STOP 1 0 else s.toFaulted

/-! ### The thermal model (R483 to R485) -/

/-- The temperature of the plate (R484); without a flow the spec states none. -/
def State.plate (s : State) : Int × State :=
  let t := ofCenti (s.fget F.PWR_COOL_INLET)
  let kf := s.fget F.PWR_CAPCFG_KCOOL * s.fget F.PWR_COOL_FLOW
  if kf = 0 then
    let (v, s) := s.fresh
    ((v : Int), s)
  else (t + ((5000000000 * s.fget F.PWR_MEAS_PM / kf : Nat) : Int), s)

/-- Power of the nodes of a logical cluster in pW over the latest 10 µs: the logic, then the vault layers. -/
def State.heat (s : State) (k : Nat) : List Int :=
  match s.physOf k with
  | none => [0, 0, 0, 0, 0]
  | some pi =>
    let code := max 80 (min 152 (s.fget F.PWR_VSET_CODE pi))
    let i := ((List.range 4).map fun r => s.fget (F.PWR_IMEAS_I r) pi).sum
    let layer (c : Nat) : Int := (((List.range 8).map fun j =>
      let v := s.vc (8 * k + j) c
      v.acc * 10000000 + v.rounds * 4000000000 + 12000000000).sum : Nat)
    ((800 + 5 * code) * i * 500000 : Nat) :: (List.range 4).map layer

/-- One step of 10 µs of a chain of nodes: heat, capacitances in µJ/K and conductances to the next node in µW/K; the last node's next
is the plate. -/
def chainStep (plate : Int) (q : List Int) (c g : Nat → Nat) (t : List Int) : List Int :=
  let at_ (i : Nat) : Int := if i < t.length then t.getD i 0 else plate
  let flow (i : Nat) : Int := g i * (at_ i - at_ (i + 1))
  t.zipIdx.map fun p =>
    let net := q.getD p.2 0 - flow p.2 + (if p.2 = 0 then 0 else flow (p.2 - 1))
    p.1 + net / (c p.2 * 100000 : Nat)

/-- Capacitances and conductances of a stack (R483). -/
def stackC (i : Nat) : Nat := if i = 0 then 500000 else 800000
def stackG (i : Nat) : Nat := if i = 0 then 6000000 else 3000000

/-- A correction term follows a sensor: 1/4,096 of the difference, within ±5 °C (R485). -/
def follow (corr diff : Int) : Int := max (-5000000) (min 5000000 (corr + diff / 4096))

def State.thermOf (s : State) (i : Nat) : Therm := smGet {} s.pow.therm i
def State.setTherm (s : State) (i : Nat) (t : Therm) : State := { s with pow := { s.pow with therm := smPut {} s.pow.therm i t } }

/-- The nodes with their corrections, as they are reported: logic and L0 to L3, or base die and DRAM. -/
def Therm.shown (t : Therm) (cluster : Bool) : List Int :=
  let n (i : Nat) : Int := t.nodes.getD i 0
  if cluster then [n 0 + t.cl, n 1 + t.cv, n 2 + t.cv, n 3 + t.cv, n 4 + t.cv] else [n 0, n 1 + t.cl]

/-! ### Sensors (R486 to R489) -/

/-- The latest reading of a sensor of a physical unit, in millionths of a degree: A, or B. -/
def State.reading (s : State) (u : Nat) (b : Bool) : Int :=
  let r := smGet (0, 0) s.pow.snsr u
  (if b then r.2 else r.1) * 10000

/-- The physical unit of a THM instance. -/
def State.thermUnit (s : State) (i : Nat) : Option Nat := if i < 128 then s.physOf i else some (132 + (i - 128))

/-- The instance of a physical unit. -/
def State.unitInst (s : State) (u : Nat) : Option Nat := if u < 132 then s.logOf u else some (128 + (u - 132))

/-- Whether a sensor is excluded. -/
def State.excluded (s : State) (i : Nat) (b : Bool) : Bool := s.flag (if b then F.THM_SNS_SUSB else F.THM_SNS_SUSA) i

/-- The model node that a sensor watches. -/
def State.ownNode (s : State) (i : Nat) (b : Bool) : Int :=
  let t := s.thermOf i
  if i < 128 then (t.shown true).getD (if b then 1 else 0) 0 else (t.shown false).getD 1 0

/-- A neighbour's value: its reading, or its model node while it is excluded. -/
def State.neighbour (s : State) (u : Nat) (b : Bool) : Int :=
  match s.unitInst u with
  | some i => if s.excluded i b then s.ownNode i b else s.reading u b
  | none => s.reading u b

/-- The two neighbours of a sensor (R488). -/
def neighboursOf (u : Nat) (b : Bool) : (Nat × Bool) × (Nat × Bool) :=
  if u < 132 then
    let p := u % 66
    let col := p % 11
    let base := u - col
    let (x, y) := if col = 0 then (1, 2) else if col = 10 then (9, 8) else (col - 1, col + 1)
    ((base + x, b), (base + y, b))
  else
    let k := u - 132
    ((u, !b), (132 + (if k % 2 = 0 then k + 1 else k - 1), b))

/-- R488: whether a sensor is far from both neighbours and from its model node. -/
def State.sensorFar (s : State) (i u : Nat) (b : Bool) : Bool :=
  let far (x y : Int) : Bool := decide (6000000 < (x - y).natAbs)
  let v := s.reading u b
  let n := neighboursOf u b
  far v (s.neighbour n.1.1 n.1.2) && far v (s.neighbour n.2.1 n.2.2) && far v (s.ownNode i b)

/-- R488: one sample of a sensor's comparison, judged on the state `s0` of the sample. -/
def State.judgeSensor (s0 s : State) (i u : Nat) (b : Bool) : State :=
  if s.excluded i b then s
  else
    let t := s.thermOf i
    let n := if s0.sensorFar i u b then (if b then t.farB else t.farA) + 1 else 0
    let s := s.setTherm i (if b then { t with farB := n % 64 } else { t with farA := n % 64 })
    if n < 64 then s
    else ((s.fset (if b then F.THM_SNS_SUSB else F.THM_SNS_SUSA) i 0 1).bump F.THM_EVCNT_SUSPECT 0 0 1).raise
      .sensorSuspect i (if b then 1 else 0) 0 0 (if i < 128 then i / 64 else halfOfStack (i - 128))

/-- R487: the working temperature of a hot spot, and whether the estimates conflict. -/
def workTemp (exA exB : Bool) (a b m : Int) : Int × Bool :=
  let far (x y lim : Int) : Bool := decide (lim < ((x - y).natAbs : Int))
  if exA && exB then (m, false)
  else if exA then (b, false)
  else if exB then (a, false)
  else if !far a b 4000000 then ((a + b) / 2, false)
  else if far a m 8000000 && far b m 8000000 then (max a (max b m), true)
  else (max a b, false)

/-- R487, R489: the working temperature of an instance, with SPLIT and CONFLICT. -/
def State.workInst (s : State) (i u : Nat) : State :=
  let cluster := decide (i < 128)
  let n := (s.thermOf i).shown cluster
  let m := n.getD (if cluster then 0 else 1) 0
  let drop := if cluster then n.getD 0 0 - n.getD 1 0 else 0
  let a := s.reading u false
  let b := s.reading u true + drop
  let (w, conf) := workTemp (s.excluded i false) (s.excluded i true) a b m
  let s := s.rset .THM_WORK i 0 (toCenti w + (if cluster then toCenti (w - drop) * 2 ^ 16 else 0))
  let s := s.fset F.THM_SNS_SPLIT i 0 (if 4000000 < (a - b).natAbs then 1 else 0)
  let t := s.thermOf i
  if conf then
    let s := s.setTherm i { t with calm := 0 }
    if s.flag F.THM_SNS_CONFLICT i then s
    else ((s.fset F.THM_SNS_CONFLICT i 0 1).bump F.THM_EVCNT_CONFLICT 0 0 1).raise .sensorConflict i 0 0 0
      (if cluster then i / 64 else halfOfStack (i - 128))
  else if s.flag F.THM_SNS_CONFLICT i then
    if t.calm + 1 = 64 then (s.setTherm i { t with calm := 0 }).fset F.THM_SNS_CONFLICT i 0 0
    else s.setTherm i { t with calm := t.calm + 1 }
  else s

/-! ### Refresh bands (R213, R326) -/

/-- The band that follows a temperature: up as soon as a bound is exceeded, down 2 °C below it. -/
def bandNext (b : Nat) (t : Int) : Nat :=
  let above (lim : Int) : Nat := if lim < t then 1 else 0
  let up := above 85000000 + above 95000000 + above 105000000
  let stay := above 83000000 + above 93000000 + above 103000000
  if b < up then up else min b stay

/-- The bands of an instance. -/
def State.bandInst (s : State) (i : Nat) : State :=
  let n := (s.thermOf i).shown (decide (i < 128))
  if i < 128 then
    (List.range 8).foldl (fun s j => (List.range 4).foldl (fun s c =>
      let v := s.vc (8 * i + j) c
      let b := bandNext v.newBand (n.getD (1 + c) 0)
      if b = v.newBand then s else s.setVc (8 * i + j) c { v with newBand := b }) s) s
  else
    let k := smGet {} s.stk (i - 128)
    { s with stk := smPut {} s.stk (i - 128) { k with newBand := bandNext k.newBand (n.getD 1 0) } }

/-! ### An evaluation (every 10 µs) -/

/-- The model of one instance: its nodes, its registers and its corrections. -/
def State.modelInst (s : State) (x : ThermIn) (plate : Int) (i u : Nat) : State :=
  let t := s.thermOf i
  if i < 128 then
    let nodes := chainStep plate (s.heat i) (Config.thermalC i) (Config.thermalG i) ((List.range 5).map fun j => t.nodes.getD j 0)
    let t := { t with nodes := nodes }
    let n := t.shown true
    let cl := if s.excluded i false then t.cl else follow t.cl (s.reading u false - n.getD 0 0)
    let cv := if s.excluded i true then t.cv else follow t.cv (s.reading u true - n.getD 1 0)
    let t := { t with cl := cl, cv := cv }
    let v := (t.shown true).map toCenti
    let s := s.setTherm i t
    let s := s.rset .THM_MODEL0 i 0 (v.getD 0 0 + v.getD 1 0 * 2 ^ 16 + v.getD 2 0 * 2 ^ 32 + v.getD 3 0 * 2 ^ 48)
    let s := s.rset .THM_MODEL1 i 0 (v.getD 4 0)
    s.rset .THM_CORR i 0 (toCenti cl + toCenti cv * 2 ^ 16)
  else
    let p : Int := ((x.watts.find? fun w => w.1 = i - 128).map (·.2)).getD 0 * 1000000000
    let nodes := chainStep plate [p, 0] stackC stackG ((List.range 2).map fun j => t.nodes.getD j 0)
    let t := { t with nodes := nodes }
    let dram := (t.shown false).getD 1 0
    let use := [false, true].filter fun b => !s.excluded i b
    let cl := if use = [] then t.cl else follow t.cl ((use.map fun b => s.reading u b).sum / use.length - dram)
    let t := { t with cl := cl }
    let v := (t.shown false).map toCenti
    let s := s.setTherm i t
    let s := s.rset .THM_MODEL0 i 0 (v.getD 0 0 + v.getD 1 0 * 2 ^ 16)
    s.rset .THM_CORR i 0 (toCenti cl)

/-- R483 to R489, R495: a sample and its evaluation. -/
def State.thermalEval (s : State) (x : ThermIn) : State :=
  let s := { s with pow := { s.pow with snsr := smPuts (0, 0) s.pow.snsr (x.snsr.filter fun p => decide (p.1 < 140)) } }
  let s := x.amps.foldl (fun s p => if p.1 < 132 then
    (List.range 4).foldl (fun s r => s.fset (F.PWR_IMEAS_I r) p.1 0 (p.2.getD r 0)) s else s) s
  let insts := (List.range 136).filterMap fun i => (s.thermUnit i).map fun u => (i, u)
  let (plate, s) := s.plate
  let s := insts.foldl (fun s p => s.modelInst x plate p.1 p.2) s
  let s := { s with vch := (s.vch.map fun (p : Nat × VCh) => (p.1, { p.2 with acc := 0, rounds := 0 })).filter fun (p : Nat × VCh) => decide (p.2 ≠ ({} : VCh)) }
  let s := insts.foldl (fun s p => (s.fset F.THM_SNS_SA p.1 0 (toCenti (s.reading p.2 false))).fset F.THM_SNS_SB p.1 0
    (toCenti (s.reading p.2 true))) s
  let s0 := s
  let s := insts.foldl (fun s p => s0.judgeSensor (s0.judgeSensor s p.1 p.2 false) p.1 p.2 true) s
  let s := insts.foldl (fun s p => (s.workInst p.1 p.2).bandInst p.1) s
  s.shutdown

/-- THM_SNSCLR: the sensors of an instance are readmitted. -/
def State.readmit (s : State) (i : Nat) : State :=
  let s := (s.fset F.THM_SNS_SUSA i 0 0).fset F.THM_SNS_SUSB i 0 0
  let t := s.thermOf i
  s.setTherm i { t with farA := 0, farB := 0 }

/-- SNS_CLEAR: a write of THM_SNSCLR. -/
def State.snsClear (s : State) (all : Bool) (inst : Nat) : State :=
  if all then (List.range 136).foldl (fun s i => if s.rget .THM_SNS i = 0 then s else s.readmit i) s
  else if inst < 136 then s.readmit inst else s

/-! ### The power cap (R493, R494) -/

/-- The terms of p_cap in µW with their BIND bits, and the least of them. -/
def State.capTerms (s : State) : List (Nat × Int) :=
  let f := s.fget F.PWR_COOL_FLOW
  let tin := sext 16 (s.fget F.PWR_COOL_INLET)
  let host := s.fget F.PWR_CAP_HOSTCAP
  ([(1, 1750000000), (2, ((f * 1093750 : Nat) : Int)), (4, ((s.fget F.PWR_CAPCFG_KCOOL * f : Nat) : Int) * (5600 - tin))] : List (Nat × Int))
    ++ (if host = 0 then [] else [(8, ((host * 1000000 : Nat) : Int))]) ++ (if s.pow.stale then [(16, 700000000)] else [])

/-- The gating that the law asks for. -/
def lawGate (ps pm : Nat) (g0 : Nat) (cap : Int) : Nat :=
  let d : Int := 16 - g0
  let ok (g : Nat) : Bool := decide (ps * d * 1000000 + ((pm : Int) - ps) * (16 - g) * 1000000 ≤ cap * d)
  let g := ((List.range 16).find? ok).getD 15
  if g < g0 then g0 - 1 else g

/-- The working temperatures at or above a soft limit less `low`: the first instance. -/
def State.overSoft (s : State) (low : Int) : Option Nat :=
  (List.range 136).find? fun i =>
    let v := s.rget .THM_WORK i
    let lim (f : Fld) : Int := s.fget f * 100 - low
    let w := sext 16 (bits v 15 0)
    if i < 128 then
      let m := s.rget .THM_MODEL0 i
      decide (lim F.THM_LIMITS_SLOGIC ≤ w) || [bits v 31 16, bits m 47 32, bits m 63 48, bits (s.rget .THM_MODEL1 i) 15 0].any fun t =>
        decide (lim F.THM_LIMITS_SVAULT ≤ sext 16 t)
    else decide (lim F.THM_LIMITS_SSTACK ≤ w)

/-- One evaluation of the law with a measured power. -/
def State.capEval (s : State) (pm : Nat) : State :=
  let s := (s.fset F.PWR_MEAS_PM 0 0 pm).fset F.PWR_MEAS_PMAX 0 0 (max pm (s.fget F.PWR_MEAS_PMAX))
  let ts := s.capTerms
  let cap := (ts.map (·.2)).foldl min 1750000000
  let bind := ((ts.filter fun t => t.2 = cap).map (·.1)).sum
  let old := s.pow.pcap
  let watts := min (2 ^ 16 - 1) (cap / 1000000).toNat
  let s := { s with pow := { s.pow with pcap := cap, evalAt := s.cc } }
  let s := (s.fset F.PWR_CAP_CAP 0 0 watts).fset F.PWR_CAP_BIND 0 0 bind
  let s := s.fset F.PWR_GATE_GLAW 0 0 (lawGate (s.fget F.PWR_CAPCFG_PSTAT) pm (s.fget F.PWR_GATE_GLAW) cap)
  let gt := s.fget F.PWR_GATE_GT
  let s := match s.overSoft 0 with
    | some i => if gt < 15 then (s.fset F.PWR_GATE_GT 0 0 (gt + 1)).raise .thermSoft i 0 0 (gt + 1) else s
    | none => if s.overSoft 299 = none then s.fset F.PWR_GATE_GT 0 0 (gt - 1) else s
  let s := if 16000000 ≤ (cap - old).natAbs then s.raise .powerCap 0 0 0 watts else s
  s.gatePwr

/-! ### Coolant telemetry (R490, R491) -/

/-- PWR_COOL.AGE: ms since the latest fresh post, saturating. -/
def State.coolAge (s : State) : Nat := match s.pow.coolAt with
  | some t => min 0xFFFF ((s.cc - t) / 960000)
  | none => 0xFFFF

/-- A post: its 16 bytes and the measured power. -/
def State.trayPost (s : State) (b : List Byte) (pm : Nat) : State :=
  let f (o : Nat) : Nat := leNat ((b.drop o).take 2)
  let valid := leNat ((b.drop 8).take 1)
  if !(valid.testBit 0 && valid.testBit 2) then s
  else
    let flow := f 6
    let low := if flow < 400 then some (s.pow.lowAt.getD s.cc) else none
    let s := { s with pow := { s.pow with coolAt := some s.cc, lowAt := low, stale := false } }
    let s := s.rset .PWR_COOL 0 0 (f 2 + f 4 * 2 ^ 16 + flow * 2 ^ 32)
    (s.capEval pm).shutdown

/-! ### The commands -/

/-- RAIL_SAMPLE: voltages and currents of a sample. -/
def State.railSample (s : State) (x : RailIn) : State :=
  let s := (x.volts.filter fun p => decide (p.1 < 15)).foldl (fun s p => s.railRead p.1 p.2) s
  let s := (x.volts.filter fun p => p.1 = 1 || p.1 = 2).foldl (fun s p => s.fset F.PWR_RAIL_VIN 0 (p.1 - 1) p.2) s
  ((x.amps.take 2).zipIdx).foldl (fun s p =>
    ((s.fset F.PWR_RAIL_IIN 0 p.2 p.1.1).fset F.PWR_RAIL_IVLT 0 p.2 p.1.2.1).fset F.PWR_RAIL_ISTK 0 p.2 p.1.2.2) s

def execRailSample (x : RailIn) (s : State) : Host.Outcome State Fault Refusal := s.when s.awake fun s => s.railSample x

/-- POWER_FAIL. -/
def execPowerFail (cause : BitVec 3) (v0 v1 : BitVec 16) (s : State) : Host.Outcome State Fault Refusal :=
  s.when (s.awake && !s.life.powerFailed && cause ≠ 0) fun s => s.powerFails cause.toNat v0.toNat v1.toNat

/-- REGULATOR_FAIL of a regulator that works. -/
def execRegulatorFail (pi : Fin 132) (r : Fin 4) (vret : Bool) (s : State) : Host.Outcome State Fault Refusal :=
  s.when (s.awake && !(s.fget F.PWR_CLSTAT_ODRFAIL pi).testBit r) fun s => s.regulatorFail pi r vret

/-- DROOP: a code below the record. -/
def execDroop (pi : Fin 132) (r : Fin 4) (code : BitVec 8) (s : State) : Host.Outcome State Fault Refusal :=
  s.when (s.awake && decide (code.toNat < s.fget F.PWR_VMIN_CODE pi r)) fun s => s.droop pi r code.toNat

/-- CHRYSALIS_ENTER and CHRYSALIS_EXIT. -/
def execChrysalisEnter (pi : Fin 132) (s : State) : Host.Outcome State Fault Refusal := s.when s.ready fun s => s.chrysWrite pi true
def execChrysalisExit (pi : Fin 132) (s : State) : Host.Outcome State Fault Refusal := s.when s.ready fun s => s.chrysWrite pi false

/-- CHRYSALIS_PHASE_END. -/
def execChrysalisPhaseEnd (pi : Fin 132) (s : State) : Host.Outcome State Fault Refusal :=
  s.when (s.pow.phases.any fun p => p.1 = pi.val && decide (p.2 ≤ s.cc)) fun s => s.phaseEnd pi

/-- THERMAL_EVAL: the diodes and the system controllers are supplied by VDD_AON, so that they go on under the shutdown latch (R469, R499). -/
def execThermalEval (x : ThermIn) (s : State) : Host.Outcome State Fault Refusal :=
  s.when s.awake fun s => s.thermalEval x

/-- TRAY_POST: its 16 bytes, the power measured by then, and whether its PEC is good. -/
def execTrayPost (b : BitVec 128) (pm : BitVec 16) (pec : Bool) (s : State) : Host.Outcome State Fault Refusal :=
  s.when (s.awake && !s.flag F.PWR_SHUT_LATCH) fun s => s.mgmtWrite pec fun s => s.trayPost (leBytes 16 b.toNat) pm.toNat

/-- COOL_STALE. -/
def execCoolStale (s : State) : Host.Outcome State Fault Refusal :=
  s.when (s.awake && !s.pow.stale && decide ((s.pow.coolAt).getD 0 + 480000000 < s.cc)) fun s =>
    { s with pow := { s.pow with stale := true } }.raise .coolStale 0 0 0 s.coolAge

/-- POWER_CAP_EVAL: 10 ms after the latest evaluation. -/
def execPowerCapEval (pm : BitVec 16) (s : State) : Host.Outcome State Fault Refusal :=
  s.when (s.awake && !s.flag F.PWR_SHUT_LATCH && decide (s.pow.evalAt + 9600000 ≤ s.cc)) fun s => s.capEval pm.toNat

/-- SNS_CLEAR. -/
def execSnsClear (all : Bool) (inst : BitVec 8) (s : State) : Host.Outcome State Fault Refusal :=
  s.when s.ready fun s => s.snsClear all inst.toNat

end Sys2Proof.Machine
end

