-- ==== Sys2Proof/Machine/Attention.lean ====
section
/-!
DEFINITION. A call of the streaming attention engine (R256 to R263). The lines of the segment's pages are those that the walk
brought; a line that no access brought is taken as memory holds it.
-/
namespace Sys2Proof.Machine

/-- FP32 values as bit patterns, with the operations of the vector unit, each rounded once. -/
def fp (x : Nat) : FV := Fmt.fp32.decode x
def toFp (v : FV) : Nat := Fmt.fp32.encode false v
def fpSub (x y : Nat) : Nat := toFp ((fp x).add (fp y).neg)
def fpMul (x y : Nat) : Nat := toFp ((fp x).mul (fp y))
def fpFma (x y z : Nat) : Nat := toFp (((fp x).mul (fp y)).add (fp z))
def fpExp (x : Nat) : Nat := toFp (fp x).exp
def fpMax (x y : Nat) : Nat := toFp ((fp x).max (fp y))
def fpNegInf : Nat := 0xFF800000

/-- An exact sum of exact products, rounded once to FP32; a sum of nothing is +0. -/
def exactDot (xs ys : List FV) : Nat := toFp ((List.zipWith FV.mul xs ys).foldl FV.add (.fin false 0 0))

/-- A job record (R260). -/
structure Job where
  seg : Nat
  q : Nat
  new : Nat
  out : Nat
  mask : Nat
  npres : Nat
  g : Nat
  nq : Nat
  nnew : Nat
  qfmt : Nat
  ofmt : Nat
  final : Bool
  scale : Nat
  ok : Bool

def jobOf (b : List Byte) : Job :=
  let v (o n : Nat) : Nat := leNat ((b.drop o).take n)
  let final := (v 27 1).testBit 0
  { seg := v 0 4, q := v 4 4, new := v 8 4, out := v 12 4, mask := v 16 4, npres := v 20 2, g := v 22 1, nq := v 23 1, nnew := v 24 1,
    qfmt := v 25 1, ofmt := v 26 1, final := final, scale := v 28 4,
    ok := decide (1 ≤ v 20 2 ∧ v 20 2 ≤ 128 ∧ 1 ≤ v 22 1 ∧ v 22 1 ≤ 16 ∧ 1 ≤ v 23 1 ∧ v 23 1 ≤ 64 ∧ v 24 1 ≤ 64 ∧
      (v 25 1 = 1 ∨ v 25 1 = 2) ∧ v 26 1 ≤ 2) && (final || v 26 1 = 0) && decide (v 27 1 < 2) }

/-- A position: its key and its value as lines. -/
abbrev Pos := Line × Line

/-- The running state of a query row. -/
structure ARowSt where
  m : Nat := fpNegInf
  l : Nat := 0
  o : List Nat := List.replicate 128 0
  deriving DecidableEq, Repr

/-- Elements of a vector of 128 with a block exponent: a scale of 0xFF makes them NaN (R128). -/
def vecOf (f : Fmt) (sc : Option Int) (l : Line) : List FV :=
  (List.range 128).map fun i => match elemAt f.width l i, sc with
    | some x, some e => (f.decode x).scale e
    | some _, none => .nan
    | none, _ => .fin false 0 0

/-- R257: one block of positions; `none` in place of a key masks its position, whose value then enters the sums with p = +0. -/
def attnBlock (q : List FV) (scale : Nat) (ks : List (Option (List FV))) (vs : List (List FV)) (st : ARowSt) : ARowSt :=
  let sc := ks.map fun k => match k with
    | some k => fpMul (exactDot q k) scale
    | none => fpNegInf
  let mb := sc.foldl fpMax fpNegInf
  let mn := fpMax st.m mb
  if mn = fpNegInf then st
  else
    let f := fpExp (fpSub st.m mn)
    let p := sc.map fun x => fpExp (fpSub x mn)
    let pv := p.map fp
    let sum := toFp (pv.foldl FV.add (.fin false 0 0))
    let o := st.o.zipIdx.map fun x =>
      let col := List.zipWith (fun a v => a.mul (v.getD x.2 (.fin false 0 0))) pv vs
      fpFma x.1 f (toFp (col.foldl FV.add (.fin false 0 0)))
    { m := mn, l := fpFma st.l f sum, o := o }

/-- Lists of `n` from a list. -/
def chunks {α : Type} (n : Nat) : Nat → List α → List (List α)
  | 0, _ => []
  | k + 1, l => if l.isEmpty then [] else l.take n :: chunks n k (l.drop n)

/-- R258, R261: the bytes of a row. -/
def rowOut (j : Job) (r : ARowSt) : List Byte :=
  if j.final then
    let f := match j.ofmt with
      | 1 => Fmt.bf16 | 2 => Fmt.e4m3 | _ => Fmt.fp32
    let inv := toFp (fp r.l).rcp
    r.o.flatMap fun x => leBytes (f.width / 8) (if r.l % 2 ^ 31 = 0 then 0 else f.encode (decide (f = .e4m3)) (fp (fpMul x inv)))
  else leBytes 4 r.m ++ leBytes 4 r.l ++ List.replicate 56 0 ++ r.o.flatMap fun x => leBytes 4 x

/-- Bytes of a row of output. -/
def Job.rowLen (j : Job) : Nat := if j.final then (match j.ofmt with
  | 1 => 256 | 2 => 128 | _ => 512) else 576

/-- The line of a page as the call sees it. -/
def State.saeLine (s : State) (n : Nat) (g : Seg) (key : Nat) : Line :=
  let ls := (s.saeOf n).lines
  if ls.any fun p => p.1 = key then smGet [] ls key
  else
    let p := g.page (key / 256)
    if s.badPage n p ∨ p = PG.NONE then List.replicate 64 none
    else match s.pageLine n p (key % 256) with
      | some a => s.peekLine a
      | none => List.replicate 64 none

/-- Rows of `w` bytes of scratch, as the engine reads them (R122). -/
def State.scratchRows (s : State) (n off w k : Nat) : List Line × State :=
  if k = 0 then ([], s) else let (l, s) := s.scratchBytes n off (w * k); (chunks w k l, s)

/-- R256: whether query position `q`, whose row of the tree mask is `m`, may attend to new position `k`; a poisoned mask gives `none`. -/
def Job.allowed (j : Job) (m : Line) (q k : Nat) : Option Bool :=
  if j.mask = 0xFFFFFFFF then some (decide (k ≤ q)) else (lineNat m).map fun m => m.testBit k

/-- The output of a call: `none` where it is poisoned. -/
def State.attention (s : State) (n : Nat) (j : Job) (g : Seg) : List (Option (List Byte)) × State :=
  let kf := if g.bf16 then Fmt.bf16 else if g.kenc = 1 then Fmt.e5m2 else Fmt.e4m3
  let vf := if g.bf16 then Fmt.bf16 else Fmt.e4m3
  let ksc := if g.bf16 then some 0 else scaleExp g.kscale
  let vsc := if g.bf16 then some 0 else scaleExp g.vscale
  let lpp := if g.bf16 then 4 else 2
  let qf := if j.qfmt = 1 then Fmt.bf16 else Fmt.e4m3
  let (qrows, s) := s.scratchRows n j.q (128 * qf.width / 8) (j.g * j.nq)
  let (newRows, s) := s.scratchRows n j.new (128 * lpp) j.nnew
  let (maskRows, s) := if j.mask = 0xFFFFFFFF ∨ j.nnew = 0 then ([], s) else s.scratchRows n j.mask 8 j.nq
  let lines (e o : Nat) : Line := (List.range lpp).flatMap fun i => s.saeLine n g (256 * e + o + i)
  let held : List Pos := (List.range g.npos).map fun x =>
    let e := x / g.per
    let sl := x % g.per
    (lines e (lpp * sl), lines e (128 + lpp * sl))
  let news : List Pos := newRows.map fun l => (l.take (64 * lpp), l.drop (64 * lpp))
  let hurt (p : Pos) : Bool := p.1.any (·.isNone) || p.2.any (·.isNone)
  -- poison in a masked position has no effect (R259)
  let whole (l : Line) : Line := if l.any (·.isNone) then l.map fun _ => some 0 else l
  let dec (p : Pos) : List FV × List FV := (vecOf kf ksc (whole p.1), vecOf vf vsc (whole p.2))
  let blocks := (chunks g.per 128 held).map fun b => b.map dec
  let newDec := news.map dec
  let masks := (List.range j.nq).map fun q => (List.range j.nnew).map fun k => j.allowed (maskRows.getD q []) q k
  let bad := held.any hurt || masks.any fun m => m.any (·.isNone) || ((List.zip m news).any fun p => p.1 = some true && hurt p.2)
  (qrows.zipIdx.map fun x =>
    if bad || x.1.any (·.isNone) then none
    else
      let q := vecOf qf (some 0) x.1
      let st := blocks.foldl (fun st b => attnBlock q j.scale (b.map fun p => some p.1) (b.map (·.2)) st) ({} : ARowSt)
      let m := masks.getD (x.2 / j.g) []
      let keys := List.zipWith (fun p a => if a = some true then some p.1 else none) newDec m
      let st := if j.nnew = 0 then st else attnBlock q j.scale keys (newDec.map (·.2)) st
      some (rowOut j st), s)

/-- ATTENTION_CALL: the call that the engine of an attention core has in hand ends: it writes its output and takes the next record. -/
def State.attentionCall (s : State) (n : Nat) (hit : Bool) : State :=
  let at_ := s.saeRecord n
  let c := ((s.saeOf n).call).getD { last := 0, job := [], desc := [], pois := true }
  let j := jobOf c.job
  let g := Seg.ofBytes j.seg c.desc
  let ovr := decide (j.npres < g.npg)
  let s := if c.lapsed then
      let s := s.errKVP n (scratchAddr n at_) ST.LICENCE 7
      if s.saeLapse then s else { s with saeLapse := true }.raise .licence n 0 1 0 (halfOfCore n)
    else s
  let s := if !j.ok || ovr then (s.errKVP n (scratchAddr n at_) ST.BOUND 6).sched n 14 6 else s
  let pois := c.lapsed || !j.ok || ovr || hit || c.pois
  let (rows, s) := if pois then (List.replicate (j.g * j.nq) none, s) else s.attention n j g
  let bytes : Line := rows.flatMap fun r => match r with
    | some l => l.map some
    | none => List.replicate j.rowLen none
  let s := s.scratchPut n j.out bytes
  let njob := s.fget F.KVP_SAEJOB_NJOB n
  s.setSae n { next := ((s.saeOf n).next + 1) % max 1 njob }

/-- The engine of core n has a call in hand whose last cycle has run. -/
def State.saeReady (s : State) (n : Nat) : Bool :=
  n % 8 = 0 && !s.failed n && (match (s.saeOf n).call with
    | some c => decide (c.last < s.now)
    | none => false)

/-- R262: a call runs for exactly its cycles: what the next cycle finds over, and no ATTENTION_CALL has ended, ends without a mismatch. -/
def State.saeOver (s : State) : State :=
  s.sae.foldl (fun s p => if s.saeReady p.1 then s.attentionCall p.1 false else s) s

/-- ATTENTION_CALL of a core; `hit`: a residue or parity mismatch of the call (R260), which R150 reports. -/
def execAttentionCall (core : Fin 1024) (hit : Bool) (s : State) : Host.Outcome State Fault Refusal :=
  s.when (s.saeReady core) fun s =>
    let s := if hit then s.residueHit { core := core, unit := 6, check := 1, lane := 0, row := 0, part := 0 } else s
    s.attentionCall core hit

end Sys2Proof.Machine
end

