-- ==== Sys2Proof/Machine/Bundle.lean ====
section
/-!
DEFINITION. BUNDLE: what every unit does in one SCNT (R62), and the Weevil's line accesses (R269 to R272, R283, R297 to R299).
-/
namespace Sys2Proof.Machine

/-! ### Output slots (R94) -/

/-- A line written to a slot of an output bank: the first write of step n to a slot of bank n mod 2 clears its POISON and PMASK. -/
def State.outWrite (s : State) (a : Nat) (d : Line) : State :=
  let slot := a % 0x10000 / 64
  let mine := decide (a / 0x10000 % 2 = s.rget .STR_STEP % 2)
  let old := if !mine || smGet false s.str.outSeen slot then s.nat a 8 else 0
  let hurt := (List.range 8).filter fun g => ((d.drop (8 * g)).take 8).any (·.isNone)
  let (b, s) := s.reveal d
  let new := leNat (b.take 8)
  let carried := if hurt.contains 0 then 0 else new
  let toks := hurt.foldl (fun m g => if 2 ≤ g then m ||| 2 ^ (2 * (g - 2)) ||| 2 ^ (2 * (g - 2) + 1) else m) 0
  let pois := bits old 9 9 ||| bits carried 9 9 ||| (if hurt = [] then 0 else 1)
  let mask := bits old 27 16 ||| bits carried 27 16 ||| toks
  let stat := setBits (setBits new 9 9 pois) 27 16 mask
  let s := s.putBytes a (leBytes 8 stat ++ b.drop 8)
  if mine then s.setStr { s.str with outSeen := smPut false s.str.outSeen slot true } else s

/-! ### Weevil accesses -/

/-- An access that is due: the cluster, the channel, and the access. -/
structure WDue where
  k : Nat
  ch : Nat
  a : WAcc
  deriving DecidableEq, Repr

/-- The accesses due in SCNT `t`, and the state without them. -/
def State.wvDue (s : State) (t : Nat) : List WDue × State :=
  let ds := s.wvl.flatMap fun p => p.2.chs.flatMap fun q => match q.2.run with
    | some r => (r.todo.filter fun a => decide (a.due ≤ t)).map fun a => { k := p.1, ch := q.1, a := a }
    | none => []
  let s := ds.foldl (fun s d =>
    let c := s.wch d.k d.ch
    match c.run with
    | some r => s.setWch d.k d.ch { c with run := some { r with todo := r.todo.filter fun a => a ≠ d.a } }
    | none => s) s
  (ds, s)

/-- Change the running descriptor of a channel. -/
def State.modRun (s : State) (k ch : Nat) (f : WRun → WRun) : State :=
  let c := s.wch k ch
  match c.run with
  | some r => s.setWch k ch { c with run := some (f r) }
  | none => s

def State.runOf (s : State) (d : WDue) : Option WRun := (s.wch d.k d.ch).run

/-- The status of the first line, in line order, that met an error: of COPY, GATHER, SCATTER and HOST_WINDOW (R283). -/
def State.wvMark (s : State) (d : WDue) (status : Nat) : State :=
  s.modRun d.k d.ch fun r =>
    let l := r.lineOf d.a.line
    if !(r.op = 1 || r.op = 2 || r.op = 3 || r.op = 10) then r
    else match r.errLine with
    | some x => if l < x then { r with status := status, errLine := some l } else r
    | none => { r with status := status, errLine := some l }

/-- A line that met an error: the WVL first-error record (R272, R283, R535), and the descriptor's status. -/
def State.wvErr (s : State) (d : WDue) (addr status cause : Nat) : State := (s.errWVL d.k d.ch addr status cause).wvMark d status

/-- A line that a read brought. -/
def State.wvGot (s : State) (d : WDue) (x : Line) : State := s.modRun d.k d.ch fun r => { r with buf := smPut [] r.buf d.a.line x }

/-- A read that was not made delivers poison. -/
def State.wvPoison (s : State) (d : WDue) : State := if d.a.write ∨ d.a.window then s else s.wvGot d (List.replicate 64 none)

/-- R245, R299: a read met an uncorrectable word: the channel halts; a descriptor that is no page operation writes its destination
lines from this one on poisoned, and TOPK_ROUTE the tokens from this logit line on. -/
def State.wvUncorr (s : State) (d : WDue) : State :=
  match s.runOf d with
  | none => s
  | some r =>
    let page := isPageOp r.desc
    let l := if r.op = 9 then d.a.line - AUX else r.lineOf d.a.line
    let s := s.modRun d.k d.ch fun r => { r with halts := true, failLine := if page then none else some (min l ((r.failLine).getD l)) }
    let s := if page then s.errKVP (dSeg r.desc).1 d.a.book ST.UNCORR 10 else s
    (s.errWVL d.k d.ch d.a.addr ST.UNCORR 11).wvHalt d.k d.ch r.idx

/-- The line that a write carries. -/
def State.wvLine (s : State) (d : WDue) : Line :=
  match s.runOf d with
  | none => List.replicate 64 none
  | some r =>
    match r.failLine with
    | some f => if f ≤ d.a.line then List.replicate 64 none else r.line d.a.line
    | none => r.line d.a.line

/-- The bytes of its line that a write changes. -/
def WDue.enables (d : WDue) (i : Nat) : Bool := decide (i < d.a.keep)

/-- Whether the word of a core leaves a vault port to the Weevil (R270). -/
def portFree (c : Core) (ch : Nat) : Bool := match c.cur with
  | some w => opVp w ch = 0 && !(ch = 3 && opFe w)
  | none => true

/-- The line that a slot of a HOST_WINDOW finds (R297). -/
def State.windowLine (s : State) (d : WDue) : Option HLine := match s.runOf d with
  | none => none
  | some r => (s.hqGet d.k).find? fun l => dField r.desc 16 8 ≤ l.addr ∧ l.addr < dField r.desc 16 8 + 64 * dField r.desc 40 4

/-- A line of a window is refused: its read delivers poison with ST_BANKCONF, its write is dropped (R199, R270). -/
def State.windowRefuse (s : State) (d : WDue) (l : HLine) : State :=
  (((s.hqSet d.k ((s.hqGet d.k).filter (· ≠ l))).failHostLine l ST.BANKCONF).pullPorts).finishReads

/-- The address of an access: in a HOST_WINDOW of the line that its slot finds. -/
def State.wvAddr (s : State) (d : WDue) : Nat := match (if d.a.window then s.windowLine d else none) with
  | some l => l.addr
  | none => d.a.addr

/-- An access that is not made: a read delivers poison, a write is dropped, the line of a window is refused. -/
def State.wvDrop (s : State) (d : WDue) : State :=
  if d.a.window then (match s.windowLine d with
    | some l => (s.wvMark d ST.BANKCONF).windowRefuse d l
    | none => s)
  else s.wvPoison d

/-- A slot of a HOST_WINDOW (R297, R298): the line it finds is served. Each line that meets an error is reported (R283). -/
def State.wvWindow (s : State) (d : WDue) (make : State → HLine → Option State) : State :=
  match s.runOf d with
  | none => s
  | some r =>
    let base := dField r.desc 16 8
    let len := dField r.desc 40 4
    match s.windowLine d with
    | none => s
    | some l =>
      match make s l with
      | some s =>
        let st := if l.write then (s.hostWrite l.addr l.data).1 else (s.hostRead l.addr).2.1
        let s := (s.windowSlot d.k base len).2
        let s := s.modRun d.k d.ch fun r => { r with result := r.result + 1 }
        if st = 0 then s else s.wvErr d l.addr st (if st = ST.ABSENT then 10 else if st = ST.UNCORR then 11 else 0)
      | none =>
        let s := match (placeOf l.addr).chan with
          | some (cn, off) => (s.chErr cn off ST.BANKCONF 1).chSched cn 1
          | none => s
        (s.wvErr d l.addr ST.BANKCONF 12).windowRefuse d l

/-- The latest cycles in which a page operation reached vault channel `cn` (R286, R287, R291). -/
def State.wvOwn (s : State) (d : WDue) (cn : Nat) : List Nat :=
  match s.runOf d with
  | some r => (r.own.filter fun x => x.1 = cn).map (·.2)
  | none => []

def State.wvOwns (s : State) (d : WDue) (cn t : Nat) : State :=
  s.modRun d.k d.ch fun r =>
    if isPageOp r.desc then { r with own := (cn, t) :: r.own.filter fun x => t < x.2 + 200 } else r

/-- R270 for a HOST_WINDOW: a line leaves its row open where the next line that waits for the window lies in the same row (DEDUCED). -/
def State.windowCloses (s : State) (d : WDue) (cn : Chan) (l : HLine) : Bool :=
  match s.runOf d with
  | none => true
  | some r =>
    let base := dField r.desc 16 8
    match ((s.hqGet d.k).filter (· ≠ l)).find? fun m => base ≤ m.addr ∧ m.addr < base + 64 * dField r.desc 40 4 with
    | some m =>
      let (x, y) := (l.addr % 0x2000000, m.addr % 0x2000000)
      decide (dField r.desc 44 4 ≤ d.a.line + 1) || cn.rowOf x ≠ cn.rowOf y || cn.bankOf x ≠ cn.bankOf y
    | none => true

/-- One access to a vault channel; `used` are the channels that this cycle has already reached. -/
def State.wvVault (s : State) (t : Nat) (used : List Nat) (d : WDue) (n c off : Nat) : List Nat × State :=
  let cn := Chan.vault n c
  let bank (s : State) (off : Nat) (write close : Bool) : Option State :=
    if used.contains cn.num then none
    else match (s.chan cn).accessOwn (s.wvOwn d cn.num) vaultRules (s.slotsAhead n c t) t (cn.bankOf off) (cn.rowOf off) write close with
      | none => none
      | some (v, opening) =>
        let s := (s.setChan cn v).wvOwns d cn.num t
        some (if opening then s.activate cn (cn.bankOf off) (cn.rowOf off) else s)
  if !portFree (s.core n) c then
    let s := s.schedWVL d.k d.ch d.a.addr ST.BANKCONF 6
    (used, if d.a.window then s.wvDrop d else (s.wvMark d ST.BANKCONF).wvPoison d)
  else if d.a.window then (cn.num :: used, s.wvWindow d fun s l => bank s (l.addr % 0x2000000) l.write (s.windowCloses d cn l))
  else if !s.chPresent cn off then
    let s := if d.a.write then s.chErr cn off ST.ABSENT 3 else (s.readLine cn off).2.2
    (used, (s.wvErr d d.a.addr ST.ABSENT 10).wvPoison d)
  else match bank s off d.a.write d.a.close with
    | none =>
      (used, (((s.chErr cn off ST.BANKCONF 1).chSched cn 1).wvErr d d.a.addr ST.BANKCONF 12).wvPoison d)
    | some s =>
      let s := if d.a.write then
          let s := if s.chBand cn = 3 then s.wvErr d d.a.addr ST.THERMAL 0 else s
          let s := s.writeLine cn off (s.wvLine d) d.enables
          match s.runOf d with
          | some r => if isPageOp r.desc then s.capturePage d.a.addr else s
          | none => s
        else
          let (x, st, s) := s.readLine cn off
          let s := s.wvGot d x
          if st = .uncorr then s.wvUncorr d else s
      (cn.num :: used, s)

/-- Whether an access lies in scratch: its core and offset. -/
def WDue.scratch (d : WDue) : Option (Nat × Nat) := match placeOf d.a.addr with
  | .scratch n off => some (n, off)
  | _ => none

/-- Accesses that do not touch scratch, reads before writes. -/
def State.wvOuter (s : State) (t : Nat) (ds : List WDue) : State :=
  let outer := ds.filter fun d => d.scratch.isNone
  let order := outer.filter (fun d => !d.a.write) ++ outer.filter fun d => d.a.write
  (order.foldl (fun (p : List Nat × State) d =>
    let (used, s) := p
    if !d.a.window && !s.wvRegion d.k d.a.addr 64 (if d.a.write then 1 else 0) then
      (used, (s.wvErr d d.a.addr ST.PROT 9).wvPoison d)
    else match placeOf d.a.addr with
      | .vault n c off => s.wvVault t used d n c off
      | .reg _ _ =>
        if d.a.write then (used, s.outWrite d.a.addr ((s.wvLine d).take d.a.keep ++ ((s.bytes d.a.addr 64).drop d.a.keep).map some))
        else (used, s.wvGot d ((s.bytes d.a.addr 64).map some))
      | _ => (used, s.wvPoison d)) (([] : List Nat), s)).2

/-- A line of its ring core's scratch that a channel moves beside its descriptor's accesses: the descriptor read of a start (R277), the status
record of a last cycle, and cancel records (R301, R302). -/
inductive WRec where
  | fetch
  | status
  | cancel (first n : Nat)
  deriving DecidableEq, Repr

/-- Those of SCNT `t` in the scratch of core `n`: channel, kind and scratch offset. -/
def State.wvRecs (s : State) (n t : Nat) : List (Nat × WRec × Nat) :=
  let k := clusterOf n
  (s.wv k).chs.flatMap fun q =>
    let ch := q.1
    let stat := s.fget F.WVL_RING_STATOFF k ch
    if s.ringCore k ch ≠ n then []
    else
      (if s.wvFetches k ch t then [(ch, WRec.fetch, s.descOff k ch (s.fget F.WVL_IDX_CONS k ch))] else []) ++
      (match q.2.run with
       | some r => if r.fin = some t then [(ch, WRec.status, s.statusOff k ch r.idx)] else []
       | none => []) ++
      (q.2.cancel.toList.map fun p => (ch, WRec.cancel p.1 p.2, stat)) ++
      ((q.2.posts.filter fun p => p.dead && p.due = t).map fun p => (ch, WRec.cancel p.first p.count, stat))

/-- R271: the accesses to the scratch of core `n` that the cycle makes, and whether it makes those and the records, which it does not where they
are more than two lines. -/
def State.wvScratch (s : State) (n : Nat) (ds : List WDue) (recs : List (Nat × WRec × Nat)) : List WDue × Bool × State :=
  let mine := ds.filter fun d => (d.scratch.map (·.1)) = some n
  if mine.isEmpty && recs.isEmpty then ([], true, s)
  else
    let k := clusterOf n
    let w := s.linesNow k
    let lines := mine.length + recs.length
    let s := s.setWv k { w with lines := smPut 0 w.lines n lines }
    if 2 < lines then
      let s := mine.foldl (fun s d => (s.errWVL d.k d.ch d.a.addr 0 7).wvDrop d) s
      let s := recs.foldl (fun s x => s.errWVL k x.1 (scratchAddr n x.2.2) 0 7) s
      ([], false, s.raiseWline k n)
    else
      let p := mine.foldl (fun (p : List WDue × State) d =>
        let (ok, s) := p
        if !d.a.window && !s.wvRegion d.k d.a.addr 64 (if d.a.write then 1 else 0) then (ok, (s.wvErr d d.a.addr ST.PROT 9).wvPoison d)
        else if !d.a.window && !s.present (placeOf d.a.addr) then
          (ok, ((s.errCOR n d.a.addr ST.ABSENT 3).wvErr d d.a.addr ST.ABSENT 10).wvPoison d)
        else (ok ++ [d], s)) (([] : List WDue), s)
      (p.1, true, p.2)

/-- A channel reads its descriptor at start + 0 (R277, R280): nothing where the read is refused. -/
def State.wvFetch (s : State) (k ch n off : Nat) (refused : Bool) : State :=
  let i := s.fget F.WVL_IDX_CONS k ch
  let c := s.wch k ch
  let unc := !refused && s.scratchUncorr n off 64
  let (l, s) := if refused then (List.replicate 64 none, s) else s.scratchBytes n off 64
  let s := s.setWch k ch { c with posts := c.posts.filter (fun p => p.first ≠ i), got := some { line := l, refused := refused, uncorr := unc } }
  if unc then (s.errWVL k ch (scratchAddr n off) ST.UNCORR 11).wvHalt k ch i else s

/-- Scratch reads of the Weevil in a cycle, and its writes and window slots. -/
def State.wvScratchReads (s : State) (n : Nat) (ovr : List Int) (ds : List WDue) : State :=
  (ds.filter fun d => !d.a.write && !d.a.window).foldl (fun s d =>
    let off : Nat := d.a.addr % 0x200000
    if ovr.contains (scrBank off) then s.wvPoison d
    else
      let bad := s.scratchBad n off
      let (x, s) := s.readScratch n (off / 64 * 64 : Nat)
      let s := s.wvGot d x
      if bad then s.wvUncorr d else s) s

def State.wvScratchWrites (s : State) (n : Nat) (ovr : List Int) (ds : List WDue) : State :=
  (ds.filter fun d => d.a.write || d.a.window).foldl (fun s d =>
    let off : Nat := d.a.addr % 0x200000
    if ovr.contains (scrBank (s.wvAddr d % 0x200000 : Nat)) then s.wvDrop d
    else if d.a.window then s.wvWindow d fun s _ => some s
    else s.writeScratch n (off / 64 * 64 : Nat) (s.wvLine d) d.enables) s

/-- The descriptor reads of a cycle, and its records; those that the cycle refuses bring nothing and are dropped. -/
def State.wvFetchRecs (s : State) (n : Nat) (refused : Nat → Bool) (recs : List (Nat × WRec × Nat)) : State :=
  recs.foldl (fun s x => if x.2.1 = .fetch then s.wvFetch (clusterOf n) x.1 n x.2.2 (refused x.2.2) else s) s

def State.wvWriteRecs (s : State) (n : Nat) (refused : Nat → Bool) (recs : List (Nat × WRec × Nat)) : State :=
  recs.foldl (fun s x => match x.2.1 with
    | .fetch => s
    | .status => if refused x.2.2 then s.modRun (clusterOf n) x.1 fun r => { r with lost := true } else s
    | .cancel first c => if refused x.2.2 then s else s.cancelRecord (clusterOf n) x.1 first c) s

/-! ### Posts (R71, R274 to R276, R301) -/

/-- The WVI fields of a cluster's cores, in their words' first cycle. -/
def State.wvPosts (s : State) (t : Nat) : State :=
  let posts := s.liveCores.filterMap fun n =>
    let c := s.core n
    match s.liveWord n with
    | some w => if c.first && c.acts && bits (opWvi w) 7 7 = 1 then some (n, bits (opWvi w) 6 4, bits (opWvi w) 3 0 + 1) else none
    | none => none
  (posts.foldl (fun (p : List (Nat × Nat) × State) x =>
    let key := (clusterOf x.1, x.2.1)
    if p.1.contains key then (p.1, p.2.schedSTR x.1 4)
    else (key :: p.1, p.2.wvPost (clusterOf x.1) x.2.1 x.2.2 t)) (([] : List (Nat × Nat)), s)).2

/-- R276: posts whose first descriptor was due in SCNT `t` and has not started. R301: the posts made while EN was 0 that this cycle has cancelled.
The cancel records that waited have been written (R302). -/
def State.wvLate (s : State) (t : Nat) : State :=
  s.wvl.foldl (fun s p => p.2.chs.foldl (fun s q =>
    let (k, ch) := (p.1, q.1)
    let s := if q.2.cancel.isSome then s.setWch k ch { s.wch k ch with cancel := none } else s
    (q.2.posts.filter fun x => x.due = t).foldl (fun s x =>
      if x.dead then
        let c := s.wch k ch
        let s := s.setWch k ch { c with posts := c.posts.filter fun y => y ≠ x }
        (s.fset F.WVL_IDX_CONS k ch (s.fget F.WVL_IDX_CONS k ch + x.count)).bump F.WVL_CANCCNT_COUNT k 0 x.count
      else if !s.flag F.WVL_CHCTL_HALTED k ch ∧ ((s.wch k ch).run.isSome ∨ s.fget F.WVL_IDX_CONS k ch ≠ x.first) then
        s.schedWVL k ch (scratchAddr (s.ringCore k ch) (s.descOff k ch x.first)) 0 1
      else s) s) s) s

/-! ### The network in one cycle -/

/-- R384: a router that has gone dark takes the lines in it with it. -/
def State.darkLines (s : State) : State := { s with flights := s.flights.filter fun f => !s.routerDark (66 * f.half + f.pos) }

/-- Ports, deliveries and hops. -/
def State.netCycle (s : State) (t : Nat) : State :=
  let s := s.darkLines
  let due := s.dueFlights t
  let (ejs, s) := s.liveCores.foldl (fun (p : List (Nat × Nat) × State) n =>
    let (s, e) := p.2.corePort n
    (if e = 0 then p.1 else (n, e) :: p.1, s)) (([] : List (Nat × Nat)), s)
  let s := s.sports.foldl (fun s p => s.stackPort (p.1 / 66) (p.1 % 66)) s
  let s := { s with flights := s.flights.filter fun f => !due.contains f }
  let s := s.liveCores.foldl (fun s n =>
    match s.physOf (clusterOf n) with
    | none => s
    | some pi =>
      let h := pi / 66
      let p := pi % 66
      let e := ((ejs.find? fun x => x.1 = n).map (·.2)).getD 0
      if e = 0 ∧ !(due.any fun f => f.half = h ∧ f.pos = p) then s
      else [0, 1].foldl (fun s ph => s.deliverCore n h p ph e due) s) s
  let s := (due.filter fun f => f.exit = some 12).map (fun f => (f.half, f.pos, f.phase)) |>.eraseDups.foldl
    (fun s x => s.deliverStack x.1 x.2.1 x.2.2 due) s
  let s := s.deliverLink due
  let s := s.itl.foldl (fun s p => [0, 1].foldl (fun s d => s.linesDue p.1 d t) s) s
  (s.meshCycle (s.meshUsed due)).hops

/-! ### What falls from outside in a bundle -/

/-- The code symbols of the word at a key of the memory: a channel's, the side code's for a cache line (R335), three else. -/
def codeOf (a : Nat) : Nat :=
  match (placeOf a).chan with
  | some (c, _) => c.nc
  | none => if 2 ^ 48 ≤ a then 4 else 3

/-- An upset of one symbol of the stored word that holds an address. -/
def State.upset (s : State) (a sym e : Nat) : State :=
  let w := a / 32
  let nc := codeOf a
  let sym := sym % (nc + 32)
  let s := { s with syn := smPut 0 s.syn w (smGet 0 s.syn w ^^^ synOf nc sym e) }
  if sym < nc then s
  else
    let b := 32 * w + (sym - nc)
    { s with mem := smPut 0 s.mem b (smGet 0 s.mem b ^^^ BitVec.ofNat 8 e) }

def State.bundleEnv (s : State) (x : BundleEnv) : State :=
  let s := x.upsets.foldl (fun s u => s.upset u.1 (u.2.1 % 36) (u.2.2 % 256)) s
  let s := x.lbups.foldl (fun s u =>
    let c := s.core (u.1 % 1024)
    s.setCore (u.1 % 1024) { c with lberr := c.lberr ++ [(u.2.1, u.2.2.1 % 35, u.2.2.2 % 256)] }) s
  let s := x.ctrlPar.foldl (fun s n => s.failCore (n % 1024) FC.CONTROL) s
  x.hits.foldl State.residueHit s

/-! ### The poll (R92, R93) -/

/-- What the poll does in a bundle of a block with POLL = 1: it captures at offset 0, and its copies are in place from offset 16 on. -/
def State.pollCycle (s : State) (poll : Bool) (off : Nat) : State :=
  if !poll then s
  else if off = 0 then
    let slots := (s.str.present.filter fun p => decide (p.1 < s.ctlNseq)).map (·.1)
    let es := slots.map fun i => (i, s.bytes (inSlot i) 64)
    let cond := s.fget F.STR_HOSTCOND_COND
    let s := s.setStr { s.str with captured := es, taken := decide (es ≠ []), hostLatch := cond,
                                   present := s.str.present.filter fun p => !slots.contains p.1 }
    let s := es.foldl (fun s e => s.putBytes (inSlot e.1) [((e.2.headD 0) &&& 0xF0)]) s
    let s := s.setCic { s.cic with polls := s.cic.polls + 1 }
    s.captureInputs es cond
  else if off = 15 then
    let es := s.str.captured
    let s := { s with mem := s.mem.filter fun c => !(decide (pollSlot 0 ≤ c.1) && decide (c.1 < pollSlot 1024)) }
    let s := es.foldl (fun s e => s.putBytes (pollSlot e.1) e.2) s
    s.setStr { s.str with captured := [], mbxmask := es.map fun e => (e.1, true) }
  else s

/-! ### Requests that fall in a bundle -/

/-- R103, R111, R457: the debug break, a halt in mode STEP and the pacing check. -/
def State.bundleRequests (s : State) : State :=
  let t := s.str.scnt.toNat
  let s := if s.flag F.STR_DEBUG_BRKEN ∧ s.flag F.STR_DEBUG_DBGEN ∧ t % 2 ^ 48 = s.fget F.STR_BRKSCNT_SCNT then
      (s.request 4 0 0).request 4 1 0 else s
  let s := match s.str.haltStep with
    | some b => if t + 24 = b then (s.requestStep 6 0 0).requestStep 6 1 0 else s
    | none => s
  let leaves := match s.cic.pending with
    | some b => !(b.mode = 1 && b.role = 1)
    | none => false
  if s.replayStandby ∧ PS.LINKED ≤ s.pst ∧ !leaves ∧ t + 24 = s.str.stepBase + s.ctlStepLen ∧ s.cic.wrote < s.rget .STR_STEP + 2 then
    s.requestStep 6 1 1
  else s

/-- R94, R459: STR_OUTSTEP takes a step's number; a pair in REPLAY mode forms the step's hash. -/
def State.outStep (s : State) (n : Nat) : State :=
  let s := s.rset .STR_OUTSTEP 0 0 n
  if s.cmode = 1 ∧ s.pst ≠ PS.OFF then s.setCic { s.cic with due := s.cic.due ++ [(s.cc + s.ctlNseq + 16, n)] } else s

/-! ### The end of a block (R63, R84 to R88) -/

/-- The cores whose words run past the block's end are cut there (R67). -/
def State.cutWords (s : State) : State :=
  s.liveCores.foldl (fun s n =>
    let c := s.core n
    if s.failed n ∨ s.stall.held.any (fun p => p.1 = n) then s
    else if c.left ≠ 0 ∨ c.widx < (s.coreBlk n s.str.blk).wcnt then s.schedSTR n 3 else s) s

/-- The block's last bundle has run; `t` is the SCNT of the next bundle. -/
def State.blockEnd (s : State) (k : CtlBlk) (t : Nat) : State :=
  let s := s.cutWords
  let b := s.str.blk
  match k.kind with
  | 1 => s.blockEntry (if s.branchCond k then k.alt else k.next) t
  | 2 =>
    let c := smGet 0 s.str.loops b
    if c < k.lcount then (s.setStr { s.str with loops := smPut 0 s.str.loops b (c + 1) }).blockEntry k.alt t
    else (s.setStr { s.str with loops := smPut 0 s.str.loops b 0 }).blockEntry k.next t
  | 3 =>
    let n := s.rget .STR_STEP
    let s := if s.ctlOutoff = 0 then s.outStep n else s
    let s := if t - s.str.stepBase = s.ctlStepLen then s else s.schedSTR 0 1
    let s := s.stepBoundary
    let s := s.setStr { s.str with stepBase := t, outSeen := [] }
    s.blockEntry k.next t
  | 4 => s.sideCuts.stackCuts
  | _ => s.blockEntry k.next t

/-! ### The bundle -/

/-- Everything the cores and the Weevils do in SCNT `t`. -/
def State.coresCycle (s : State) (x : BundleEnv) (t : Nat) : State :=
  let (ds, s) := s.wvDue t
  let s := s.wvOuter t ds
  let s := s.liveCores.foldl (fun s n =>
    let recs := s.wvRecs n t
    let (mine, room, s) := s.wvScratch n ds recs
    if mine.isEmpty ∧ recs.isEmpty ∧ s.coreIdle n t then s
    else
      let moved : List Nat := (mine.map fun d => s.wvAddr d % 0x200000) ++ if room then recs.map (·.2.2) else []
      let lines := s.coreLines n t ++ moved.map fun (x : Nat) => (x : Int)
      let ovr := overBanks lines
      let refused (off : Nat) : Bool := !room || ovr.contains (scrBank off)
      let s := (s.wvScratchReads n ovr mine).wvFetchRecs n refused recs
      let s := s.coreFields n x.hits t lines
      (s.wvScratchWrites n ovr mine).wvWriteRecs n refused recs) s
  ((s.wvActs t).wvPosts t).wvLate t

/-- The words of every core after this cycle. -/
def State.wordsStep (s : State) : State :=
  s.liveCores.foldl (fun s n =>
    let c := s.core n
    if c.left = 0 ∨ s.stall.held.any (fun p => p.1 = n) then s else s.setCore n { c with left := c.left - 1 }) s

/-- What every unit does in a bundle. -/
def State.bundleBody (s : State) (x : BundleEnv) : State :=
  let t := s.str.scnt.toNat
  let k := s.ctlBlk s.str.blk
  let off := s.str.off
  let s := (s.str.pendingMbx.filter fun p => decide (p.due ≤ t)).foldl State.mbxTake s
  let s := s.bundleEnv x
  let s := s.saeOver
  let s := s.retraps
  let s := s.liveCores.foldl (fun s n => if s.stall.held.any (fun p => p.1 = n) then s else s.loadWord n) s
  let s := s.netCycle t
  let s := s.coresCycle x t
  let s := s.sideCycle t x.side
  let s := s.pollCycle k.poll off
  let s := s.wordsStep
  let s := if s.ctlOutoff ≠ 0 ∧ t = s.str.stepBase + s.ctlOutoff then s.outStep (s.rget .STR_STEP) else s
  (s.bundleRequests).serviceRequests

/-- Time goes on by one executed bundle. -/
def State.advance (s : State) (cc : Nat) (scnt : BitVec 64) : State :=
  { s with cc := cc, str := { s.str with scnt := scnt }, stall := { s.stall with debugLeft := s.stall.debugLeft.map fun n => n - 1 } }

/-- BUNDLE: what every unit does, the end of a block, and the next SCNT; after the last bundle of an END block every lease ends
(R352) and the stream halts. -/
def State.bundle (s : State) (x : BundleEnv) : State :=
  let k := s.ctlBlk s.str.blk
  let u := s.bundleBody x
  let u := if s.str.off + 1 = k.len then u.blockEnd k (s.str.scnt.toNat + 1) else u.setStr { u.str with off := s.str.off + 1 }
  let u := u.advance (s.cc + 1) (s.str.scnt + 1)
  if s.str.off + 1 = k.len ∧ k.kind = 4 then u.endLeases.halt true false else u

/-- A bundle executes: the stream is RUNNING and nothing freezes it. -/
def State.bundleRuns (s : State) : Bool :=
  s.powered && s.str.st = .running && !s.str.starting && s.stall.frz.isNone && !s.freezeDue && !s.windowDue &&
    s.stall.debugLeft ≠ some 0

def execBundle (x : BundleEnv) (s : State) : Host.Outcome State Fault Refusal := s.when s.bundleRuns fun s => s.bundle x

end Sys2Proof.Machine
end

