-- ==== Sys2Proof/Machine/ChanRows.lean ====
section
/-!
DEFINITION. The commands on memory channels and pools outside bundles: soft row repair (R181), refresh intervals (R213, R214, R326),
channel map changes (R226, R227, R339, R340) and reserve refills (R255).
-/
namespace Sys2Proof.Machine

/-! ### ARR_ROWMAP (R163, R181) -/

/-- The device remaps the rows of a core. The spares in use and the deskew delays that it then shows follow from ARR_ROWMAP; the contents
of the stationary sets move with their logical rows, so nothing of them changes. -/
def State.rowmapApply (s : State) (n v : Nat) : State := s.rset .ARR_ROWMAP n 0 (v % 2 ^ 16)

/-- ARR_DESKEWk as the failed rows in force set it (R163). -/
def State.deskewReg (s : State) (n k : Nat) : Nat :=
  let f := rowmapFailed (s.rget .ARR_ROWMAP n)
  ((List.range 8).map fun j => deskewOf f (8 * k + j) * 2 ^ (8 * j)).sum

/-- A write of ARR_ROWMAP: its status. -/
def State.rowmapWrite (s : State) (n v : Nat) : Nat × State :=
  let f := rowmapFailed v
  if s.locked ∨ f.any (fun r => 65 < r) ∨ !f.Nodup then (ST.LOCKED, s) else (ST.OK, s.rowmapApply n v)

/-- ARR_ROWMAP_WRITE. -/
def execArrRowmapWrite (core : Fin 1024) (v : BitVec 64) (s : State) : Host.Outcome State Fault Refusal :=
  s.when s.ready fun s => (s.rowmapWrite core v.toNat).2

/-! ### Refresh intervals -/

/-- Rounds that a band owes per interval (R213). -/
def bandRounds (b : Nat) : Nat := if b = 0 then 1 else if b = 1 then 2 else 4

/-- The new band of a vault channel takes effect. -/
def State.newVaultBand (s : State) (n c : Nat) : State :=
  let old := s.fget (F.VLT_BAND_BAND c) n
  let b := (s.vc n c).newBand
  if b = old then s
  else
    let s := s.fset (F.VLT_BAND_BAND c) n 0 b
    if b = 3 then s.raise .vltHot n c 0 0 (halfOfCore n) else s

/-- The new band of a stack takes effect. -/
def State.newStackBand (s : State) (k : Nat) : State :=
  let old := s.fget F.SSK_BAND_BAND k
  let b := (s.stkOf k).newBand
  if b = old then s
  else
    let s := (s.fset F.SSK_BAND_BAND k 0 b).fset F.SSK_STAT_HOT k 0 (if b = 3 then 1 else 0)
    if b = 3 then s.raise .sskHot k 0 0 0 (halfOfStack k) else s

/-- OWED of a channel rises by the rounds of its band. -/
def State.oweChan (s : State) (c : Chan) : State :=
  (s.setOwed c (s.owed c + bandRounds (s.chBand c))).owedRequest c

/-- A boundary at a channel: one that refreshes itself takes its rounds at once. -/
def State.boundaryChan (s : State) (c : Chan) : State :=
  if s.selfRef c then s.ownRounds c (bandRounds (s.chBand c)) else s.oweChan c

/-- The side stacks of a half. -/
def stacksOf (h : Nat) : List Nat := (List.range 8).filter fun k => halfOfStack k = h

/-- R214: a refresh interval boundary of a half. -/
def State.refreshInterval (s : State) (h : Nat) : State :=
  let s := { s with refIvl := smPut 0 s.refIvl h (smGet 0 s.refIvl h + 1) }
  let cores := (List.range 512).map (512 * h + ·)
  let s := cores.foldl (fun s n => (List.range 4).foldl (fun s c => (s.newVaultBand n c).boundaryChan (.vault n c)) s) s
  let s := (stacksOf h).foldl (fun s k => (List.range 32).foldl (fun s c => s.boundaryChan (.side k c)) (s.newStackBand k)) s
  s.serveAll

/-- REFRESH_INTERVAL: the half's counter has reached the next boundary. -/
def execRefreshInterval (half : Fin 2) (s : State) : Host.Outcome State Fault Refusal :=
  s.when (s.awake && s.powered && s.clocked half && decide (3744 * (smGet 0 s.refIvl half + 1) ≤ s.cc)) fun s => s.refreshInterval half

/-! ### Channel map commands -/

/-- Whether a Molt runs on the half of a channel (R510). -/
def State.moltOn (s : State) (h : Nat) : Bool := match s.life.molt with
  | some m => m.half = h
  | none => false

/-- CHMAP_SET: KIND, ACTION and INDEX of its body. -/
def State.chmapCmd (s : State) (kind action index : Nat) : State × Answer :=
  if 1 < kind ∨ 3 < action ∨ (if kind = 0 then 4096 else 256) ≤ index then (s, some (ST.DESC, []))
  else
    let c := chmapChan kind index
    if s.moltOn c.half then (s, some (ST.STATE, []))
    else if s.running then (s.setChPending c 1, none)
    else match s.chmapApply c action with
      | (some st, s) => ((s.drainHost).serveAll, some (st, []))
      | (none, s) => (s, none)

def execChmapSet (h : EcpHdr) (kind action : BitVec 8) (index : BitVec 16) (s : State) : Host.Outcome State Fault Refusal :=
  let (k, a, i) := (kind.toNat, action.toNat, index.toNat)
  let args := if s.running then [k, a, i] else [k, a, i, 1]
  s.when (s.hears h.qp) fun s => s.ecp h OP.CHMAP_SET GRP_MAP false false args [] fun s => s.chmapCmd k a i

/-- The channel that a CHMAP_SET RETRAIN in progress retrains. -/
def State.retrainCmd (s : State) : Option Chan := match s.cmdOf OP.CHMAP_SET with
  | some cmd => match cmd.args with
    | [kind, 2, index, _] => some (chmapChan kind index)
    | _ => none
  | none => none

/-- The channel whose retraining ends next: that of the command, else the lowest one whose command a warm reset completed. -/
def State.retraining (s : State) : Option Chan :=
  s.retrainCmd <|> ((List.range 4352).map chanOfNum).find? fun c => s.chState c = CH.RETRAINING

/-- R204, R322: record a failed connection of a retraining; more than two failed symbols cannot be held. -/
def State.retrainLines (s : State) (c : Chan) (bad : List Nat) : State × Bool :=
  bad.foldl (fun p j =>
    let (s, ovr) := p
    let syms := ((s.chLanes c).map c.symOf).eraseDups
    if ovr then (s, true)
    else if 2 ≤ syms.length ∧ !syms.contains (c.symOf j) then (s, true)
    else (s.failLine c j, false)) (s, false)

/-- R227, R340: a retraining ends with the connections it found failed. -/
def State.retrainDone (s : State) (c : Chan) (bad : List Nat) : State :=
  let (s, ovr) := s.retrainLines c bad
  let mine := s.retrainCmd = some c
  let s := if ovr then s.mapOut c 5 else s.setChState c CH.OFFLINE
  if mine then s.complete OP.CHMAP_SET ST.OK else s

/-- RETRAIN_DONE: the connections of the channel in retraining that the training found failed, 0 to 279 of a vault channel, 0 to 71 of
a side channel. -/
def execRetrainDone (bad : List (Fin 280)) (s : State) : Host.Outcome State Fault Refusal :=
  s.when (s.awake && s.powered && (match s.retraining with | some c => s.clocked c.half | none => false)) fun s => match s.retraining with
    | some c => s.retrainDone c (bad.map Fin.val |>.filter fun j => decide (j < (match c with | .vault _ _ => 280 | .side _ _ => 72)))
    | none => s

/-! ### KV_REFILL -/

/-- KV_REFILL: MASK of its body, 128 bytes. -/
def State.refillCmd (s : State) (mask : List Byte) : State × Answer :=
  if s.running then (s, none)
  else
    let (e, s) := s.refillAll mask
    (s, some (refillAnswer e))

def execKvRefill (h : EcpHdr) (mask : BitVec 1024) (s : State) : Host.Outcome State Fault Refusal :=
  let m := leBytes 128 mask.toNat
  s.when (s.hears h.qp) fun s => s.ecp h OP.KV_REFILL GRP_PAGES false false [] m fun s => s.refillCmd m

end Sys2Proof.Machine
end

