-- ==== Sys2Proof/Machine/WeevilRows.lean ====
section
/-!
DEFINITION. The commands of the Weevil engines: the start of a descriptor of each operation (R277 to R298), the page unit, the end of a
descriptor and the channel commands of R301. `mismatch` says that the duplicated compare logic differs in
the descriptor (R296); the operations that have none do not use it.
-/
namespace Sys2Proof.Machine

/-- The next descriptor of a channel starts, when it is due, and its operation is `op`. -/
def startOp (cl : Fin 128) (ch : Fin 8) (mismatch : Bool) (op : Nat) (s : State) : Host.Outcome State Fault Refusal :=
  s.when (s.wvReady cl ch op) fun s => s.wvStart cl ch mismatch

/-- NOP: OP 0x00; a descriptor that cannot be used and a reserved OP start here (R280). -/
def execNop (cl : Fin 128) (ch : Fin 8) (mismatch : Bool) (s : State) : Host.Outcome State Fault Refusal :=
  startOp cl ch mismatch 0 s

/-- COPY: OP 0x01. -/
def execCopy (cl : Fin 128) (ch : Fin 8) (mismatch : Bool) (s : State) : Host.Outcome State Fault Refusal :=
  startOp cl ch mismatch 1 s

/-- GATHER: OP 0x02. -/
def execGather (cl : Fin 128) (ch : Fin 8) (mismatch : Bool) (s : State) : Host.Outcome State Fault Refusal :=
  startOp cl ch mismatch 2 s

/-- SCATTER: OP 0x03. -/
def execScatter (cl : Fin 128) (ch : Fin 8) (mismatch : Bool) (s : State) : Host.Outcome State Fault Refusal :=
  startOp cl ch mismatch 3 s

/-- PAGE_APPEND: OP 0x04. -/
def execPageAppend (cl : Fin 128) (ch : Fin 8) (mismatch : Bool) (s : State) : Host.Outcome State Fault Refusal :=
  startOp cl ch mismatch 4 s

/-- PAGE_COW: OP 0x05. -/
def execPageCow (cl : Fin 128) (ch : Fin 8) (mismatch : Bool) (s : State) : Host.Outcome State Fault Refusal :=
  startOp cl ch mismatch 5 s

/-- PAGE_SHARE: OP 0x06. -/
def execPageShare (cl : Fin 128) (ch : Fin 8) (mismatch : Bool) (s : State) : Host.Outcome State Fault Refusal :=
  startOp cl ch mismatch 6 s

/-- PAGE_FREE: OP 0x07. -/
def execPageFree (cl : Fin 128) (ch : Fin 8) (mismatch : Bool) (s : State) : Host.Outcome State Fault Refusal :=
  startOp cl ch mismatch 7 s

/-- TREE_WALK: OP 0x08. -/
def execTreeWalk (cl : Fin 128) (ch : Fin 8) (mismatch : Bool) (s : State) : Host.Outcome State Fault Refusal :=
  startOp cl ch mismatch 8 s

/-- TOPK_ROUTE: OP 0x09. -/
def execTopkRoute (cl : Fin 128) (ch : Fin 8) (mismatch : Bool) (s : State) : Host.Outcome State Fault Refusal :=
  startOp cl ch mismatch 9 s

/-- HOST_WINDOW: OP 0x0A. -/
def execHostWindow (cl : Fin 128) (ch : Fin 8) (mismatch : Bool) (s : State) : Host.Outcome State Fault Refusal :=
  startOp cl ch mismatch 10 s

/-- PAGE_UNIT_TAKE: the page unit is free and an operation waits (R282). -/
def execPageUnitTake (cl : Fin 128) (s : State) : Host.Outcome State Fault Refusal :=
  s.when (s.str.st = .running && s.stall.frz.isNone && !(s.wv cl).wait.isEmpty && decide ((s.wv cl).puFree ≤ s.now)) fun s => s.puNext cl

/-- DESCRIPTOR_COMPLETE: the last cycle of the descriptor's occupancy has run (R275). -/
def execDescriptorComplete (cl : Fin 128) (ch : Fin 8) (s : State) : Host.Outcome State Fault Refusal :=
  let r? := ((s.wch cl ch).run).filter fun r => match r.fin with
    | some f => decide (f < s.now)
    | none => false
  s.when r?.isSome fun s => match r? with
    | some r => s.wvComplete cl ch r
    | none => s

/-- WVL_DISABLE, WVL_ENABLE and WVL_CLEAR: writes of the three bits of WVL_CHCTL that carry out a command. -/
def execWvlDisable (cl : Fin 128) (ch : Fin 8) (s : State) : Host.Outcome State Fault Refusal :=
  s.when s.ready fun s => s.wvCommand cl ch 2 false
def execWvlEnable (cl : Fin 128) (ch : Fin 8) (s : State) : Host.Outcome State Fault Refusal :=
  s.when s.ready fun s => s.wvCommand cl ch 1 false
def execWvlClear (cl : Fin 128) (ch : Fin 8) (s : State) : Host.Outcome State Fault Refusal :=
  s.when s.ready fun s => s.wvCommand cl ch 0 true

end Sys2Proof.Machine
end

