-- ==== Sys2Proof/Machine/SideRows.lean ====
section
/-!
DEFINITION. The commands of the side stacks and of Scarab compute: one line slot of each kind of entry (R315 to R333, R346 to R356), the
deadline of a reduction, the end of a lease's window, cache lanes and reserved slots.
-/
namespace Sys2Proof.Machine

/-- The next line slot of a channel that falls in the present SCNT. -/
def State.nextSlot (s : State) (k c : Nat) : Option Nat :=
  if s.str.st = .running && s.stall.frz.isNone && !s.str.starting then (s.slotsLeft k c s.nowS).head? else none

/-- The kind of the entry a channel stands at: its OP, and the sub-operation of OP 0x6. -/
def State.slotKind (s : State) (k c : Nat) : Option (Nat × Nat) :=
  (s.entryAt k (s.sc k c).cur).map fun e => (eOp e, if eOp e = 6 then bits (eOpnd e) 43 40 else 0)

/-- A scheduled slot of a channel whose entry is of a kind. -/
def slotOf (stk : Fin 8) (ch : Fin 32) (hits : List SideHit) (kind : Nat × Nat) (s : State) : Host.Outcome State Fault Refusal :=
  let n? := (s.nextSlot stk ch).filter fun n => decide (n % 16 ≠ 15)
  s.when (n?.isSome && s.slotKind stk ch = some kind) fun s => match n? with
    | some n => s.sideSlot stk ch n hits
    | none => s

/-- ACCESS (R317): OP 0x1, a read, write, contribution or atomic access. -/
def execAccess (stk : Fin 8) (ch : Fin 32) (hits : List SideHit) (s : State) : Host.Outcome State Fault Refusal :=
  slotOf stk ch hits (1, 0) s

/-- REFWIN (R325): OP 0x2. -/
def execRefwin (stk : Fin 8) (ch : Fin 32) (hits : List SideHit) (s : State) : Host.Outcome State Fault Refusal :=
  slotOf stk ch hits (2, 0) s

/-- SVC (R324): OP 0x3. -/
def execSvc (stk : Fin 8) (ch : Fin 32) (hits : List SideHit) (s : State) : Host.Outcome State Fault Refusal :=
  slotOf stk ch hits (3, 0) s

/-- REDOPEN (R331): OP 0x4. -/
def execRedopen (stk : Fin 8) (ch : Fin 32) (hits : List SideHit) (s : State) : Host.Outcome State Fault Refusal :=
  slotOf stk ch hits (4, 0) s

/-- REDCLOSE (R333): OP 0x5. -/
def execRedclose (stk : Fin 8) (ch : Fin 32) (hits : List SideHit) (s : State) : Host.Outcome State Fault Refusal :=
  slotOf stk ch hits (5, 0) s

/-- LEASE (R346, R347): OP 0x6, sub-operation 0. -/
def execLease (stk : Fin 8) (ch : Fin 32) (hits : List SideHit) (s : State) : Host.Outcome State Fault Refusal :=
  slotOf stk ch hits (6, 0) s

/-- BCAST (R353): OP 0x6, sub-operation 1. -/
def execBcast (stk : Fin 8) (ch : Fin 32) (hits : List SideHit) (s : State) : Host.Outcome State Fault Refusal :=
  slotOf stk ch hits (6, 1) s

/-- REDUCTION_DEADLINE: the deadline slot of an open reduction has come (R333). -/
def execReductionDeadline (stk : Fin 8) (ch : Fin 32) (s : State) : Host.Outcome State Fault Refusal :=
  let n? := s.nextSlot stk ch
  let due (n : Nat) : Bool := (s.sc stk ch).reds.any fun p => !p.2.judged && decide (p.2.deadline ≤ n)
  s.when ((n?.map due).getD false) fun s => match n? with
    | some n => s.deadlines stk ch n
    | none => s

/-- LEASE_WINDOW_END: the first slot after a lease's window has come (R352). -/
def execLeaseWindowEnd (stk : Fin 8) (ch : Fin 32) (s : State) : Host.Outcome State Fault Refusal :=
  let n? := s.nextSlot stk ch
  let ovr (n : Nat) : Bool := match (s.sc stk ch).lease with
    | some l => decide (l.start + 25 * l.lenf ≤ n)
    | none => false
  s.when ((n?.map ovr).getD false) fun s => match n? with
    | some n => s.endLease stk ch n
    | none => s

/-- CACHE_LANE_ACCESS: one cc of a cache lane with a list (R336). -/
def execCacheLaneAccess (stk : Fin 8) (lane : Fin 8) (s : State) : Host.Outcome State Fault Refusal :=
  let x : CLane := smGet {} (s.stkOf stk).lanes lane
  s.when (s.str.st = .running && s.stall.frz.isNone && !s.str.starting && x.cur.live && decide (x.next ≤ s.nowS)) fun s =>
    s.laneSlot stk lane

/-- SIDE_RESERVED_SLOT: slot 15 of 16 of a channel: a fill line, or else a host line (R309, R335). -/
def execSideReservedSlot (stk : Fin 8) (ch : Fin 32) (s : State) : Host.Outcome State Fault Refusal :=
  let n? := (s.nextSlot stk ch).filter fun n => decide (n % 16 = 15)
  s.when n?.isSome fun s => match n? with
    | some n => s.sideSlot stk ch n []
    | none => s

/-- SCB_CTL_WRITE: a write of SCB_CTL.EN (R365). -/
def execScbCtlWrite (stk : Fin 4) (en : Bool) (s : State) : Host.Outcome State Fault Refusal :=
  s.when s.ready fun s => s.fset F.SCB_CTL_EN stk 0 (if en then 1 else 0)

end Sys2Proof.Machine
end

