-- ==== Sys2Proof/Machine/ItlRows.lean ====
section
/-!
DEFINITION. The commands of the Ittaing link (R387 to R402): flits, replay, stall points, training, fencing, lane loss, and the frames of
the stall lanes (R100, R388).
-/
namespace Sys2Proof.Machine

/-- FLIT_LAUNCH: the sender of module `m`, direction `d`, has a flit to launch. -/
def execFlitLaunch (m : Fin 16) (d : Fin 2) (s : State) : Host.Outcome State Fault Refusal :=
  s.when (s.powered && (s.acks m d).canLaunch m d) fun s => s.launchFlit m d

/-- DATA_FLIT: the next flit on the wire reaches the receiver, intact or corrupt. -/
def execDataFlit (m : Fin 16) (d : Fin 2) (corrupt : Bool) (s : State) : Host.Outcome State Fault Refusal :=
  s.when (s.powered && s.flitArrives m d) fun s => s.takeFlit m d corrupt

/-- IDLE_FLIT: an IDLE flit with the lanes on which it shows bit errors. -/
def execIdleFlit (m : Fin 16) (d : Fin 2) (bad : List (Fin 68)) (s : State) : Host.Outcome State Fault Refusal :=
  s.when (s.powered && s.itlActive m) fun s => s.idleFlit m d (bad.map Fin.val)

/-- WIDTHCHK_FLIT: the width code of a WIDTHCHK flit while the module is in CHECK. -/
def execWidthchkFlit (m : Fin 16) (d : Fin 2) (code : BitVec 8) (s : State) : Host.Outcome State Fault Refusal :=
  s.when (s.powered && s.itlState m = LK.CHECK) fun s => s.widthCheck m d code.toNat

/-- LINE_DUE: lines that direction `d` of module `m` has delivered are due in the present SCNT. -/
def execLineDue (m : Fin 16) (d : Fin 2) (s : State) : Host.Outcome State Fault Refusal :=
  s.when (s.str.st = .running && s.stall.frz.isNone && (s.itlDir m d).waiting.any fun l => l.tL + 64 = s.nowS) fun s =>
    s.linesDue m d s.nowS

/-- REPLAY_STALL_POINT: a missing flit has reached a + 37 − F. -/
def execReplayStallPoint (m : Fin 16) (d : Fin 2) (s : State) : Host.Outcome State Fault Refusal :=
  s.when (s.running && s.powered && s.stallPoint m d) fun s => s.raiseStallPoint m d

/-- LATE_LAUNCH: a line has not been launched by t_L + 16. -/
def execLateLaunch (m : Fin 16) (d : Fin 2) (s : State) : Host.Outcome State Fault Refusal :=
  s.when (s.running && s.powered && s.isLate m d) fun s => s.markLate m d false

/-- REPLAY_TIMEOUT: the oldest flit has had no acknowledgement for 1.2 µs. -/
def execReplayTimeout (m : Fin 16) (d : Fin 2) (s : State) : Host.Outcome State Fault Refusal :=
  s.when (s.powered && s.replayDue m d) fun s => s.replayFrom m d

/-! ### Stall lanes -/

/-- A lane of the direction from half `d` is lost (R100). -/
def State.stallLaneLost (s : State) (d lane : Nat) : State :=
  let b := 2 * d + lane
  if s.stall.lanes.testBit b then
    let s := s.setStall { s.stall with lanes := s.stall.lanes - 2 ^ b, laneBad := s.stall.laneBad.filter fun p => p.1 ≠ b }
    s.raise .stallLane 0 d 0 lane d
  else s

/-- Lanes in service of a direction. -/
def State.stallLanesUp (s : State) (d : Nat) : List Nat := (List.range 2).filter fun l => s.stall.lanes.testBit (2 * d + l)

/-- R388: bits 27:0 of the frame that half `d` sends: the requests it holds, the start code, its GATE_EFF, the condition lines of the block. -/
def State.stallBits (s : State) (d : Nat) : Nat :=
  s.stallReq d % 2 ^ 7 + (if d = 0 && s.str.starting then 2 ^ 7 else 0) + s.fget F.STR_GATE_GATE_EFF % 16 * 2 ^ 8 + s.str.cond % 2 ^ 16 * 2 ^ 12

/-- The CRC of R388, polynomial x^4 + x + 1, of the lowest `n` bits, the highest first (assumption 174). -/
def crc4 (x : Nat) : Nat → Nat
  | 0 => 0
  | n + 1 => (List.range (n + 1)).foldl (fun r i =>
      let r' := 2 * r + (if x.testBit (n - i) then 1 else 0)
      if r'.testBit 4 then (r' ^^^ 0b10011) % 16 else r') 0

/-- The frame as it is sent. -/
def State.stallWord (s : State) (d : Nat) : BitVec 32 := BitVec.ofNat 32 (s.stallBits d + crc4 (16 * s.stallBits d) 32 * 2 ^ 28)

/-- Whether the CRC of a received frame fails. -/
def frameBad (w : BitVec 32) : Bool := crc4 (16 * (w.toNat % 2 ^ 28)) 32 ≠ w.toNat / 2 ^ 28

/-- R388: a frame of the direction from half `d` with the lanes on which its CRC fails. Sixteen failures of a lane within 65,536 frames,
one to a cycle, lose the lane; a frame without a good copy loses both, and a direction without a lane brings the stream to FAULTED. -/
def State.stallFrame (s : State) (d : Nat) (bad : Nat → Bool) : State :=
  let up := s.stallLanesUp d
  let hit := up.filter bad
  let fresh := s.stall.laneBad.filter fun p => s.cc < p.2 + 65536
  let s := s.setStall { s.stall with laneBad := fresh ++ hit.map fun l => (2 * d + l, s.cc) }
  let lost := if hit = up then up
    else hit.filter fun l => decide (16 ≤ (s.stall.laneBad.filter fun p => p.1 = 2 * d + l).length)
  let s := lost.foldl (fun s l => s.stallLaneLost d l) s
  if s.stallLanesUp d = [] then s.toFaulted else s

/-- STALL_LANE_FRAME: a frame with the bits that each lane's copy has flipped on its way. -/
def execStallLaneFrame (d : Fin 2) (err0 err1 : BitVec 32) (s : State) : Host.Outcome State Fault Refusal :=
  s.when (s.powered && s.stallLanesUp d ≠ []) fun s =>
    s.stallFrame d fun l => frameBad (s.stallWord d ^^^ (if l = 0 then err0 else err1))

/-! ### Training and fencing -/

/-- LINK_TRAIN_DONE: the lanes of each direction that failed TRAIN, and F of each direction. -/
def execLinkTrainDone (m : Fin 16) (fail0 fail1 : BitVec 68) (f0 f1 : BitVec 4) (s : State) : Host.Outcome State Fault Refusal :=
  s.when (s.powered && s.itlState m = LK.TRAIN && (s.itlOf m).fast.isNone) fun s =>
    s.trainDone m fail0.toNat fail1.toNat f0.toNat f1.toNat

/-- R399: the length of an attempt in CCLK cycles: 10 µs in service, 40 ms in bring-up phase 5. -/
def State.trainLimit (s : State) : Nat := if s.fget F.BST_BRINGUP_PHASE = 5 then 38400000 else 9600

/-- LINK_TRAIN_TIMEOUT: TRAIN is not done in time. -/
def execLinkTrainTimeout (m : Fin 16) (s : State) : Host.Outcome State Fault Refusal :=
  s.when (s.powered && s.itlState m = LK.TRAIN && (s.itlOf m).fast.isNone && decide ((s.itlOf m).since + s.trainLimit ≤ s.cc)) fun s =>
    s.attemptFails m

/-- FAST_RETRAIN_DONE. -/
def execFastRetrainDone (m : Fin 16) (s : State) : Host.Outcome State Fault Refusal :=
  s.when (s.powered && (s.itlOf m).fast.isSome) fun s => s.fastDone m

/-- A write of ITL_CTL: FENCE acts in ACTIVE; RETRAIN acts in DOWN, ACTIVE and FENCED (R399). -/
def State.itlCtl (s : State) (m v : Nat) : State :=
  let st := s.itlState m
  if v.testBit 1 ∧ st = LK.ACTIVE then s.fence m
  else if v.testBit 0 ∧ (st = LK.DOWN ∨ st = LK.ACTIVE ∨ st = LK.FENCED) then s.fullRetrain m
  else s

/-- ITL_RETRAIN and ITL_FENCE: writes of the two bits of ITL_CTL. -/
def execItlRetrain (m : Fin 16) (s : State) : Host.Outcome State Fault Refusal := s.when s.ready fun s => s.itlCtl m 1
def execItlFence (m : Fin 16) (s : State) : Host.Outcome State Fault Refusal := s.when s.ready fun s => s.itlCtl m 2

/-- LANE_LOCK_LOST: lane `l` of a direction loses lock; 64 to 67 are the spares. -/
def execLaneLockLost (m : Fin 16) (d : Fin 2) (l : Fin 68) (s : State) : Host.Outcome State Fault Refusal :=
  s.when (s.powered && s.itlActive m) fun s => s.laneFails m d l

/-- FRAMING_LOST. -/
def execFramingLost (m : Fin 16) (s : State) : Host.Outcome State Fault Refusal :=
  s.when (s.powered && s.itlActive m) fun s => s.fullRetrain m

end Sys2Proof.Machine
end

