-- ==== Sys2Proof/Machine/Pair.lean ====
section
/-!
DEFINITION. The commands of the Cicada pair (chapter 12): PAIR_MODE, the frames that arrive, heartbeats, step hashes and the writing of
input records.
-/
namespace Sys2Proof.Machine

/-! ### PAIR_MODE (R439 to R443) -/

/-- R440: the journal range is wholly present side-stack memory. -/
def State.jbufOk (s : State) (base mib : Nat) : Bool :=
  base % 65536 = 0 && decide (mib ≤ 8192) && (List.range (16 * mib)).all fun i =>
    match placeOf (base + 65536 * i) with
    | .side k c off => s.present (.side k c off)
    | _ => false

/-- R440: the first refusal of a PAIR_MODE, if any. -/
def State.pairRefusal (s : State) (b : PairBody) (flags : Nat) : Option Nat :=
  let eth (p : Nat) : Bool := !s.flag F.ETH_STAT_MODE p
  let holds := (List.range 256).any fun q => s.fget F.ECP_QPSTAT_STATE q = 2 && decide (6 ≤ s.qpPort q)
  let live := s.locked
  if !s.licensed 2 then some ST.LICENCE
  else if b.mode ≠ 0 ∧ b.path = 0 ∧ (eth 6 ∨ eth 7) ∧ holds then some ST.STATE
  else if b.role = 1 ∧ b.mode ≠ 0 ∧ live then some ST.STATE
  else if b.path = 1 ∧ !s.flag F.ECP_QPSTAT_SESS b.relay then some ST.AUTH
  else if 2 < b.mode ∨ 1 < b.role ∨ 1 < b.path ∨ 1 < flags ∨ (b.path ≠ 1 ∧ b.relay ≠ 0) ∨
      (b.role = 0 ∧ (b.jbuf ≠ 0 ∨ 8192 < b.jlen)) ∨ (b.role = 1 ∧ !s.jbufOk b.jbuf b.jlen) ∨ !s.mirrorOk then some ST.DESC
  else none

/-- A PAIR_MODE that another replaces while it waits: the spec gives it no status, so a free value stands for it. -/
def State.dropPair (s : State) : State :=
  match s.cic.pending, s.cmdOf OP.PAIR_MODE with
  | some _, some _ =>
    let (x, s) := s.fresh
    (s.setCic { s.cic with pending := none }).complete OP.PAIR_MODE (x % 2 ^ 16) s.pairBody
  | _, _ => s

/-- R441: an accepted PAIR_MODE waits for the boundary where it changes ROLE or MODE of a running device; else it takes effect at once. -/
def State.pairCmd (s : State) (b : PairBody) (flags : Nat) : State × Answer :=
  match s.pairRefusal b flags with
  | some st => (s, some (st, []))
  | none =>
    let s := s.dropPair
    if s.running ∧ (b.mode ≠ s.cmode ∨ b.role ≠ s.fget F.CIC_STAT_ROLE) then
      ((s.setCic { s.cic with pending := some b }).fset F.CIC_STAT_PENDING 0 0 1, none)
    else
      let s := s.applyPair b
      if b.mode = 0 then (s, some (ST.OK, s.pairBody)) else (s, none)

/-- PAIR_MODE: MODE, ROLE, PATH, FLAGS, RELAYQP, PEERUID, JBUF and JBUFLEN of its body. -/
def execPairMode (h : EcpHdr) (mode role path flags relay : BitVec 8) (uid jbuf : BitVec 64) (jlen : BitVec 16) (s : State) :
    Host.Outcome State Fault Refusal :=
  let b : PairBody := { mode := mode.toNat, role := role.toNat, path := path.toNat, divhalt := flags.toNat % 2 = 1, relay := relay.toNat,
                        uid := uid.toNat, jbuf := jbuf.toNat, jlen := jlen.toNat }
  s.when (s.hears h.qp) fun s => s.ecp h OP.PAIR_MODE GRP_PAIR false s.cic.pending.isSome [] [] fun s => s.pairCmd b flags.toNat

/-- PAIR_SEEK_TIMEOUT: 100 ms in which the device has not reached LINKED (R442). -/
def execPairSeekTimeout (s : State) : Host.Outcome State Fault Refusal :=
  s.when (s.powered && s.doing OP.PAIR_MODE && s.cic.pending.isNone && decide (s.cic.seekAt + 96000000 ≤ s.cc)) fun s =>
    s.complete OP.PAIR_MODE ST.PAIR_NOPEER s.pairBody

/-! ### Frames in (R445 to R449) -/

/-- Whether sequence number `x` lies at or before `y`, modulo 2^32. -/
def seqLe (x y : Nat) : Bool := decide ((y + 2 ^ 32 - x) % 2 ^ 32 < 2 ^ 31)

/-- The acknowledgement that a frame carries: frames up to ACKSEQ leave the sender; a NAK replays the rest (R448). -/
def State.frameAck (s : State) (h : FrameHdr) : State :=
  let s := if h.ackv then s.setCic { s.cic with sent := s.cic.sent.filter fun f => !seqLe f.seq h.ack.toNat } else s
  let s := if h.nak then
      let n := s.cic.sent.length
      (s.bump F.CIC_CRCCNT_REPLAY 0 0 n).bump F.CIC_FRMCNT_TX 0 0 n
    else s
  State.pump s.cic.outq.length s

/-- Whether frames reach the device. -/
def State.cicHears (s : State) : Bool := s.awake && s.powered && s.pst ≠ PS.OFF && s.pathUp

/-- A good frame with a sequence number: one out of order waits for its replay on the direct path, and breaks the pair on the network path. -/
def State.frameIn (s : State) (h : FrameHdr) (act : State → State) : State :=
  let s := (s.bump F.CIC_FRMCNT_RX 0 0 1).frameAck h
  if s.cic.rxSeq.isNone ∨ s.cic.rxSeq = some h.seq.toNat then
    act (s.setCic { s.cic with rxSeq := some ((h.seq.toNat + 1) % 2 ^ 32), nak := false })
  else if s.flag F.CIC_STAT_PATH ∧ s.pst = PS.LINKED then s.pairBreaks BC.GAP
  else s

/-- A frame of a type is received. -/
def frameRow (h : FrameHdr) (s : State) (act : State → State) : Host.Outcome State Fault Refusal :=
  s.when s.cicHears fun s => s.frameIn h act

/-! ### Heartbeats (R450 to R454) -/

/-- R451. -/
def State.heartbeatOk (s : State) (x : HeartbeatIn) : Bool :=
  x.uid.toNat = s.rget .CIC_PEERUID && x.role ≠ s.standby && s.cmode ≠ 0 && x.mode.toNat ≠ 0 &&
    (s.cmode ≠ 1 || x.mode.toNat ≠ 1 || (x.image.toNat = s.rget .STR_IMAGE && x.mapdig.toNat = s.chmapDigest))

/-- A HEARTBEAT arrives (R444, R451, R452, R454). -/
def State.heartbeatIn (s : State) (h : FrameHdr) (x : HeartbeatIn) : State :=
  let s := (s.bump F.CIC_FRMCNT_RX 0 0 1).frameAck h
  let st := s.pst
  let s := if s.heartbeatOk x then s.rset .CIC_PEERSTEP 0 0 h.step.toNat else s
  if st = PS.PEER_LOST then (if x.uid.toNat = s.rget .CIC_PEERUID then s.pairBreaks BC.RETURN else s)
  else if !s.heartbeatOk x then (if st = PS.SEEKING ∨ st = PS.LINKED then s.pairBreaks BC.CONFIG else s)
  else
    let was := s.cic.peerState
    let s := s.setCic { s.cic with hbAt := s.cc, misses := 0, peerState := x.state.toNat }
    if st = PS.SEEKING then
      let s := s.fset F.CIC_STAT_PSTATE 0 0 PS.LINKED
      s.complete OP.PAIR_MODE ST.OK s.pairBody
    else if st = PS.LINKED then
      let s := if was ≠ x.state.toNat then s.raise .peerState 0 0 0 x.state.toNat 1 else s
      if x.pstate.toNat = PS.BROKEN then s.pairBreaks x.bcause.toNat else s
    else s

/-- HEARTBEAT: a good frame of type 0x01 arrives. -/
def execHeartbeat (h : FrameHdr) (x : HeartbeatIn) (s : State) : Host.Outcome State Fault Refusal :=
  s.when s.cicHears fun s => s.heartbeatIn h x

/-- HEARTBEAT_SEND: 7.5 µs or more after the previous one (R452). -/
def execHeartbeatSend (s : State) : Host.Outcome State Fault Refusal :=
  s.when (s.life.aon && s.powered && s.pst ≠ PS.OFF && decide (s.cic.hbSent + 7200 ≤ s.cc)) fun s =>
    (s.sendFrame 1 s.pairStep s.heartbeat).setCic { (s.sendFrame 1 s.pairStep s.heartbeat).cic with hbSent := s.cc }

/-- HEARTBEAT_MISS: the next time of R452 without a good heartbeat. -/
def execHeartbeatMiss (s : State) : Host.Outcome State Fault Refusal :=
  s.when (s.powered && s.pst = PS.LINKED && decide (s.cic.hbAt + missAt s.cic.misses ≤ s.cc)) State.heartbeatMiss

/-- NOTICE: a good frame of type 0x02 (R453). -/
def execNotice (h : FrameHdr) (cause : BitVec 8) (s : State) : Host.Outcome State Fault Refusal :=
  frameRow h s fun s => if s.pst = PS.LINKED then s.peerLost (lcauseOf cause.toNat) else s

/-! ### Hashes (R459, R460) -/

/-- Compare the hashes of a step; a standby with DIVHALT that diverges halts as STREAM_HALT in mode STEP does. -/
def State.compareAndHalt (s : State) (n : Nat) : State :=
  let (s, diverges) := s.compareHash n
  if diverges && s.standby && s.flag F.CIC_CFG_DIVHALT then (s.haltCmd 0).1 else s

/-- HASH: a good frame of type 0x03. -/
def execHash (h : FrameHdr) (hash : BitVec 64) (pois : Bool) (s : State) : Host.Outcome State Fault Refusal :=
  frameRow h s fun s =>
    let n := h.step.toNat
    if s.cmode ≠ 1 then s
    else (s.setCic { s.cic with peer := (s.cic.peer.filter fun p => p.1 ≠ n) ++ [(n, hash.toNat, pois)] }).compareAndHalt n

/-- The device's own hash of local step `n` is ready: kept, sent, and compared. -/
def State.stepHashDone (s : State) (n : Nat) : State :=
  let (x, pois) := s.stepHash n
  let pn := if s.standby then (s.rget .CIC_APPLIED + 1 + n) % 2 ^ 64 else n
  let s := s.setCic { s.cic with due := s.cic.due.drop 1, own := s.cic.own ++ [(pn, x, pois, false)] }
  let s := s.sendFrame 3 pn (leBytes 8 x ++ leBytes 1 (if pois then 1 else 0))
  (s.compareAndHalt pn).dropOld

/-- STEP_HASH: NSEQ + 16 real cycles after STR_OUTSTEP took a step's number. -/
def execStepHash (s : State) : Host.Outcome State Fault Refusal :=
  let n? := (s.cic.due.head?).filter fun p => decide (p.1 ≤ s.cc)
  s.when (s.powered && n?.isSome) fun s => match n? with
    | some p => s.stepHashDone p.2
    | none => s

/-! ### Input records of a REPLAY standby (R455 to R458) -/

/-- An incomplete record is discarded. -/
def State.dropPart (s : State) : State :=
  (s.setCic { s.cic with part := [], partStep := none }).errCIC 0 0 4

/-- INPUT: a good frame of type 0x04 with up to three entries: slot and 64 bytes. -/
def execInput (h : FrameHdr) (entries : List (Fin 1024 × BitVec 512)) (s : State) : Host.Outcome State Fault Refusal :=
  frameRow h s fun s =>
    if !(s.pairFlows && s.standby && s.cmode = 1) then s
    else
      let n := h.step.toNat
      let s := if s.cic.partStep.isSome ∧ s.cic.partStep ≠ some n then s.dropPart else s
      let es := (entries.take 3).map fun e => (e.1.val, leBytes 64 e.2.toNat)
      s.setCic { s.cic with part := s.cic.part ++ es, partStep := some n }

/-- INEND: a good frame of type 0x05: the record is complete when its entry count agrees. -/
def State.inputEnd (s : State) (n count cond : Nat) : State :=
  if !(s.pairFlows && s.standby && s.cmode = 1) then s
  else
    let s := if s.cic.partStep.isSome ∧ s.cic.partStep ≠ some n then s.dropPart else s
    if s.cic.part.length ≠ count then s.dropPart
    else if 64 ≤ s.cic.recs.length then (s.setCic { s.cic with part := [], partStep := none }).pairBreaks BC.BEHIND
    else
      let r : InRec := { step := n, entries := s.cic.part, cond := cond }
      (s.setCic { s.cic with part := [], partStep := none, recs := s.cic.recs ++ [r] }).startRecord

def execInend (h : FrameHdr) (count cond : BitVec 16) (s : State) : Host.Outcome State Fault Refusal :=
  frameRow h s fun s => s.inputEnd h.step.toNat count.toNat cond.toNat

/-- The record that is due to be written: the one for the step after the latest poll. A broken pair consumes none (R444, R467). -/
def State.dueRecord (s : State) : Option InRec :=
  let live := s.locked || (s.str.st = .halted && !s.str.ended)
  if s.replayStandby ∧ s.pst ≠ PS.BROKEN ∧ live ∧ s.cic.wrote ≤ s.cic.polls then
    (s.cic.recs.head?).filter fun r => decide (r.step = (s.rget .CIC_APPLIED + 1 + s.cic.wrote) % 2 ^ 64)
  else none

/-- R456 to R458: a record goes into the mailbox and STR_HOSTCOND; a paced stream resumes, a held start goes on. -/
def State.writeRecordIn (s : State) (r : InRec) : State :=
  let s := r.entries.foldl (fun s e => s.mbxWrite (e.1 % 1024) 0 e.2) s
  let s := s.rset .STR_HOSTCOND 0 0 (r.cond % 2 ^ 16)
  let s := s.rset .CIC_LASTIN 0 0 r.step
  let s := s.setCic { s.cic with recs := s.cic.recs.drop 1, wrote := s.cic.wrote + 1 }
  let s := s.setStr { s.str with startHeld := false }
  if s.flag F.CIC_STAT_PACED then
    let s := (s.fset F.CIC_STAT_PACED 0 0 0).bump F.CIC_PACECNT_COUNT 0 0 1
    s.resume.2
  else s

/-- INPUT_RECORD_WRITE. -/
def execInputRecordWrite (s : State) : Host.Outcome State Fault Refusal :=
  let r? := s.dueRecord
  s.when (s.powered && r?.isSome) fun s => match r? with
    | some r => s.writeRecordIn r
    | none => s

/-! ### Journal frames of a standby (R461 to R465) -/

/-- A frame is staged in the journal buffer, whose bytes the spec does not lay out; one that overruns it breaks the pair. -/
def State.stageFrame (s : State) (f : Stage → Stage) : State :=
  let size := s.fget F.CIC_JBUF_LEN * 2 ^ 20
  let used := s.cic.stage.bytes
  if size < used + 256 then s.pairBreaks BC.JBUF
  else
    let s := if used = 0 then s.loseRange (s.fget F.CIC_JBUF_BASE) size else s
    s.setCic { s.cic with stage := { f s.cic.stage with bytes := used + 256 } }

/-- A standby takes journal frames while records flow; a change to REPLAY lets the step in transit finish (R465). -/
def journalRow (h : FrameHdr) (s : State) (act : State → State) : Host.Outcome State Fault Refusal :=
  frameRow h s fun s => if s.pairFlows && s.standby then act s else s

/-- A line record: device address, 64 bytes and the poison bits of its granules. -/
def lineRecord (r : BitVec 64 × BitVec 512 × BitVec 8) : Nat × Line :=
  (r.1.toNat % 2 ^ 48 / 64 * 64, (leBytes 64 r.2.1.toNat).zipIdx.map fun p => if r.2.2.toNat.testBit (p.2 / 8) then none else some p.1)

/-- JLINE: a good frame of type 0x06 with up to three line records. -/
def execJline (h : FrameHdr) (rs : List (BitVec 64 × BitVec 512 × BitVec 8)) (s : State) : Host.Outcome State Fault Refusal :=
  journalRow h s fun s => s.stageFrame fun g => { g with lines := g.lines ++ (rs.take 3).map lineRecord, frames := g.frames + 1 }

/-- SYNC: a good frame of type 0x09, a piece of the base copy. -/
def execSync (h : FrameHdr) (rs : List (BitVec 64 × BitVec 512 × BitVec 8)) (s : State) : Host.Outcome State Fault Refusal :=
  journalRow h s fun s => s.stageFrame fun g => { g with lines := g.lines ++ (rs.take 3).map lineRecord }

/-- JREG: a good frame of type 0x07: a core and its four KVP registers. -/
def execJreg (h : FrameHdr) (core : Fin 1024) (free defer reserve live : BitVec 64) (s : State) : Host.Outcome State Fault Refusal :=
  journalRow h s fun s => s.stageFrame fun g =>
    { g with regs := g.regs ++ [(core.val, [free.toNat, defer.toNat, reserve.toNat, live.toNat])], frames := g.frames + 1 }

/-- JEND: a good frame of type 0x08: the step is applied when its frame count agrees, and discarded when it does not. -/
def execJend (h : FrameHdr) (frames : BitVec 64) (base : Bool) (s : State) : Host.Outcome State Fault Refusal :=
  journalRow h s fun s =>
    if s.cic.stage.frames = frames.toNat then s.applyStage h.step.toNat base else s.setCic { s.cic with stage := {} }

/-- BAD_FRAME: a frame of a reserved type or with a bad CRC (R446, R448). -/
def execBadFrame (s : State) : Host.Outcome State Fault Refusal :=
  s.when s.cicHears fun s =>
    let s := s.bump F.CIC_CRCCNT_BAD 0 0 1
    if s.flag F.CIC_STAT_PATH then s else s.setCic { s.cic with nak := true }

end Sys2Proof.Machine
end

