-- ==== Sys2Proof/Machine/Ports.lean ====
section
/-!
DEFINITION. Ports, the RoCEv2 subset and sessions (chapter 11): link changes, pause frames, address resolution, connections, RDMA WRITE
and READ, errors and timeouts, and the session commands.
-/
namespace Sys2Proof.Machine

/-! ### Ports (R405 to R409) -/

/-- The device's ports run: from bring-up phase 8 on, in no reset, with power and no shutdown. -/
def State.portsRun (s : State) : Bool :=
  s.awake && s.powered && decide (8 ≤ s.fget F.BST_BRINGUP_PHASE) && !s.flag F.PWR_SHUT_LATCH

/-- The rate that a port may come up at. -/
def State.rateOk (s : State) (p rate : Nat) : Bool :=
  if s.flag F.ETH_STAT_MODE p then rate = 3
  else if s.flag F.ETH_CTL_AN p then rate = 1 || rate = 2
  else match s.fget F.ETH_CTL_FIXRATE p with
    | 0 => false
    | 1 => rate = 1
    | _ => rate = 2

/-- The frames of a direct path that are unacknowledged on a port that goes down are sent again on the other (R448). -/
def State.resend (s : State) (p : Nat) : State :=
  let n := (s.cic.sent.filter fun f => f.seq % 2 = p % 2).length
  if s.cicPorts = 0 then s else (s.bump F.CIC_CRCCNT_REPLAY 0 0 n).bump F.CIC_FRMCNT_TX 0 0 n

/-- R408, R448: a port's link comes up at a rate (1 to 3) or goes down (0). -/
def State.linkChange (s : State) (p rate : Nat) : State :=
  let up := if rate = 0 then 0 else 1
  let cicada := s.flag F.ETH_STAT_MODE p
  let s := (s.fset F.ETH_STAT_LINK p 0 up).fset F.ETH_STAT_RATE p 0 rate
  if cicada then
    let s := if p = 6 then s.fset F.CIC_STAT_P6UP 0 0 up else s.fset F.CIC_STAT_P7UP 0 0 up
    let s := s.raise .cicPort p 0 up 0 1
    if rate = 0 then s.resend p else State.pump s.cic.outq.length s
  else if s.fget F.BST_BRINGUP_PHASE = 0xA then s.raise .ethLink p 0 up rate (p / 4)
  else s

/-- ETH_LINK_CHANGE: the link of a port comes up at a rate that its mode and ETH_CTL allow, or goes down. -/
def execEthLinkChange (p : Fin 8) (rate : BitVec 2) (s : State) : Host.Outcome State Fault Refusal :=
  let up := s.flag F.ETH_STAT_LINK p
  s.when (s.portsRun && (if rate = 0 then up else !up && s.rateOk p rate.toNat)) fun s => s.linkChange p rate.toNat

/-- A write of ETH_CTL; a write retrains the port. -/
def State.ethCtl (s : State) (p v : Nat) : State :=
  let s := s.rset .ETH_CTL p 0 (bits v 6 4 * 16 + bits v 2 0)
  if s.flag F.ETH_STAT_LINK p ∧ !s.flag F.ETH_STAT_MODE p then s.linkChange p 0 else s

/-- ETH_CTL_WRITE. -/
def execEthCtlWrite (p : Fin 8) (v : BitVec 64) (s : State) : Host.Outcome State Fault Refusal :=
  s.when s.ready fun s => s.ethCtl p v.toNat

/-- Whether a port receives Ethernet frames. -/
def State.portHears (s : State) (p : Nat) : Bool := s.portsRun && s.flag F.ETH_STAT_LINK p && !s.flag F.ETH_STAT_MODE p

/-- PFC_FRAME: a priority flow control frame with its enable vector and the priorities whose time is not zero (R407). -/
def execPfcFrame (p : Fin 8) (enable time : BitVec 8) (s : State) : Host.Outcome State Fault Refusal :=
  s.when (s.portHears p) fun s =>
    let old := BitVec.ofNat 8 (s.fget F.ETH_STAT_PFCRX p)
    (s.bump F.ETH_PAUSECNT_RX p 0 1).fset F.ETH_STAT_PFCRX p 0 ((old &&& ~~~enable) ||| (enable &&& time)).toNat

/-- Whether an address is one of a port's own: IPv4 in the low 32 bits, or IPv6; a zero address is disabled. -/
def State.ownAddr (s : State) (p : Nat) (v6 : Bool) (a : Nat) : Bool :=
  if v6 then a ≠ 0 && a = s.rget .ETH_IP6L p + s.rget .ETH_IP6H p * 2 ^ 64 else a ≠ 0 && a = s.rget .ETH_IP4 p

/-- ARP or IPv6 neighbour discovery for an address: the port answers for its own addresses and leaves others alone; the state keeps the
latest answer of each port. -/
def execArp (p : Fin 8) (v6 : Bool) (a : BitVec 128) (s : State) : Host.Outcome State Fault Refusal :=
  s.when (s.portHears p) fun s =>
    s.setPort p { s.port p with answered := if s.ownAddr p v6 a.toNat then some (v6, a.toNat) else (s.port p).answered }

/-- DISCARDED_FRAME: a frame that is no RoCEv2, ARP or neighbour discovery, or is too large; or a global pause frame, which is counted
and ignored (R406). -/
def execDiscardedFrame (p : Fin 8) (pause : Bool) (s : State) : Host.Outcome State Fault Refusal :=
  s.when (s.portHears p) fun s => if pause then s.bump F.ETH_PAUSECNT_RX p 0 1 else s.bump F.ETH_RXDROP_COUNT p 0 1

/-! ### Connections (R410, R413, R420, R438) -/

/-- Close the session of a queue pair (R429). -/
def State.closeSession (s : State) (q : Nat) : State :=
  (s.fset F.ECP_QPSTAT_SESS q 0 0).rset .ECP_SESSION q 0 (0xFF * 2 ^ 32)

/-- Close every session. -/
def State.closeSessions (s : State) : State := s.sessions.foldl State.closeSession s

/-- R413: a queue pair enters ERROR (state 3) or is disconnected (state 0). What it has not finished goes on without an answer. -/
def State.qpLeaves (s : State) (q st : Nat) : State :=
  let s := (s.closeSession q).raise .qpError q 0 0 0 (s.qpPort q / 4)
  let s := s.setQp q {}
  let s := { s with cmds := s.cmds.map (fun (c : Cmd) => if c.qp = q then { c with qp := NO_QP } else c),
                    rdreqs := s.rdreqs.map fun (r : ReadReq) => if r.qp = q then { r with qp := NO_QP } else r }
  if st = 0 then ((s.rset .ECP_QPSTAT q 0 0).rset .ECP_RGIDL q 0 0).rset .ECP_RGIDH q 0 0 else s.fset F.ECP_QPSTAT_STATE q 0 st

/-- The lowest free queue pair. -/
def State.freeQp (s : State) : Option Nat := (List.range 256).find? fun q => s.fget F.ECP_QPSTAT_STATE q = 0

/-- What connection management answers on a port. -/
def State.cmAnswer (s : State) (p : Nat) (a : CmAnswer) : State := s.setPort p { s.port p with cm := some a }

/-- R410, R420: a REQ is accepted: the lowest free queue pair is CONNECTING, with a random R_Key; the counters of R438 start anew. Before
READY, or with no queue pair free, it is rejected. -/
def State.connect (s : State) (p : Nat) (x : CmReq) : State :=
  match if s.ready then s.freeQp else none with
  | none => s.cmAnswer p .rej
  | some q =>
    let s := s.rset .ECP_QPSTAT q 0 (x.rqpn.toNat * 2 ^ 32 + p * 2 ^ 4 + 1)
    let s := (s.rset .ECP_RGIDL q 0 (x.gid.toNat % 2 ^ 64)).rset .ECP_RGIDH q 0 (x.gid.toNat / 2 ^ 64)
    let s := (((s.rset .ECP_CMDCNT q 0 0).rset .ECP_AUTHFAIL q 0 0).rset .ECP_EVLOST q 0 0).rset .ECP_SESSION q 0 (0xFF * 2 ^ 32)
    let (k, s) := s.fresh
    let s := s.cmAnswer p (.rep q (k % 2 ^ 32))
    s.setQp q { ({} : Qp) with rkey := k % 2 ^ 32, mtu := 1024 * 2 ^ x.mtu.val, ackTimeout := x.ackTimeout.toNat,
                               retryCount := x.retryCount.toNat, rnrRetry := x.rnrRetry.toNat }

/-- CM_REQ: a connection request on QP1 of a port; before READY, or with no queue pair free, it is rejected with no resources. -/
def execCmReq (p : Fin 8) (x : CmReq) (s : State) : Host.Outcome State Fault Refusal :=
  s.when (s.portHears p) fun s => s.connect p x

/-- CM_RTU: the host confirms the connection. -/
def execCmRtu (q : Fin 256) (s : State) : Host.Outcome State Fault Refusal :=
  s.when (s.ready && s.fget F.ECP_QPSTAT_STATE q = 1) fun s => s.fset F.ECP_QPSTAT_STATE q 0 2

/-- CM_DREQ: a disconnection, which DREP answers. -/
def execCmDreq (q : Fin 256) (s : State) : Host.Outcome State Fault Refusal :=
  s.when (s.ready && s.fget F.ECP_QPSTAT_STATE q ≠ 0) fun s =>
    (s.qpLeaves q 0).cmAnswer (s.qpPort q) (.drep q)

/-- QP_ERROR: a connected or connecting queue pair enters ERROR. -/
def execQpError (q : Fin 256) (s : State) : Host.Outcome State Fault Refusal :=
  s.when (s.awake && (s.fget F.ECP_QPSTAT_STATE q = 1 || s.fget F.ECP_QPSTAT_STATE q = 2)) fun s => s.qpLeaves q 3

/-- The host answers the device's SENDs (R410): 0 an acknowledgement, 1 a NAK after which the rest is sent again, 2 an RNR NAK, which
also suspends the ACK deadline (R421). The oldest `n` messages are acknowledged. -/
def State.roceAck (s : State) (q kind n : Nat) : State :=
  let v := s.qp q
  let v := { v with sendq := v.sendq.drop n, retries := if n = 0 then v.retries else 0, rnrs := if n = 0 then v.rnrs else 0 }
  match kind with
  | 0 => s.setQp q { v with rnrs := 0 }
  | 1 => if v.retryCount ≤ v.retries then s.qpLeaves q 3 else s.setQp q { v with retries := v.retries + 1 }
  | _ => if v.rnrRetry ≠ 7 ∧ v.rnrRetry ≤ v.rnrs then s.qpLeaves q 3 else s.setQp q { v with rnrs := v.rnrs + 1 }

/-- ROCE_ACK. -/
def execRoceAck (q : Fin 256) (kind : Fin 3) (n : BitVec 24) (s : State) : Host.Outcome State Fault Refusal :=
  s.when (s.awake && s.fget F.ECP_QPSTAT_STATE q = 2) fun s => s.roceAck q kind n.toNat

/-- LOCAL_ACK_TIMEOUT: what the queue pair has sent is not acknowledged in time: it is sent again, or the retry count is exhausted. -/
def execLocalAckTimeout (q : Fin 256) (s : State) : Host.Outcome State Fault Refusal :=
  s.when (s.awake && s.fget F.ECP_QPSTAT_STATE q = 2 && !(s.qp q).sendq.isEmpty) fun s =>
    if (s.qp q).retryCount ≤ (s.qp q).retries then s.qpLeaves q 3
    else s.setQp q { s.qp q with retries := (s.qp q).retries + 1 }

/-! ### RDMA (R411 to R415) -/

/-- A NAK: 1 invalid request, 2 remote access error. -/
def State.nakRdma (s : State) (q code : Nat) : State := s.send q { kind := 0x21, status := code }

/-- A request reaches a connected queue pair. -/
def State.rdmaHears (s : State) (q : Nat) : Bool := s.ready && s.fget F.ECP_QPSTAT_STATE q = 2

/-- R411: whether a request is turned away. -/
def State.rdmaDenied (s : State) (q rkey : Nat) (ok : Bool) : Bool :=
  !s.flag F.ECP_QPSTAT_SESS q || rkey ≠ (s.qp q).rkey || !ok

/-- R91, R436: the half whose port received a write of the mailbox forwards the slot to the other half, while the stream is RUNNING or STALLED, with
the DUE at which it becomes present. -/
def State.forwardSlot (s : State) (h slot : Nat) : State :=
  match s.str.pendingMbx.find? fun p => p.slot = slot && p.due = s.nowS + 64 with
  | some p => s.pushLink 0 h [{ desc := vDesc .mailbox 0 0 (some p.due) (p.bytes.map some), line := p.bytes.map some, mod := 0 }]
  | none => s

/-- RDMA WRITE of bytes at a device address; one to the input mailbox is one access to it (R89). -/
def State.rdmaWrite (s : State) (q va rkey : Nat) (d : List Byte) : State :=
  if s.rdmaDenied q rkey (hostMayWrite va d.length) then s.nakRdma q 2
  else if hostRegion va = 6 then
    let slot := (va - inSlot 0) / 64
    let t := s.mailboxWrite slot (va % 64) d
    if windowOk va d.length ∧ !s.replayStandby then t.forwardSlot (halfOfPort (s.qpPort q)) slot else t
  else (s.startWrite q va d).finishReads

/-- RDMA_WRITE. -/
def execRdmaWrite (q : Fin 256) (va : BitVec 64) (rkey : BitVec 32) (ce : Bool) (d : List Byte) (s : State) :
    Host.Outcome State Fault Refusal :=
  s.when (s.rdmaHears q) fun s =>
    let s := if ce then s.ceMark q else s
    if d = [] then s else s.rdmaWrite q va.toNat rkey.toNat d

/-- R89: a read of a mailbox window that is no access of its kind completes with ST_UNALIGNED: unspecified bytes, and the address logged. -/
def State.unalignedRead (s : State) (q va len : Nat) : State :=
  let (body, s) := (s.errSTR va ST.UNALIGNED 7).reveal (List.replicate len none)
  s.send q { kind := 0x20, body := body }

/-- RDMA READ; at most 16 are outstanding on a queue pair. -/
def State.rdmaRead (s : State) (q va rkey len : Nat) : State :=
  if s.rdmaDenied q rkey (hostMayRead va len) then s.nakRdma q 2
  else if 16 ≤ (s.rdreqs.filter fun r => r.op = 0x20 ∧ r.qp = q).length then s.nakRdma q 1
  else if 4 ≤ hostRegion va ∧ !windowOk va len then s.unalignedRead q va len
  else (s.startRead 0x20 q 0 0 va len).2.finishReads

/-- RDMA_READ. -/
def execRdmaRead (q : Fin 256) (va : BitVec 64) (rkey : BitVec 32) (ce : Bool) (len : BitVec 31) (s : State) :
    Host.Outcome State Fault Refusal :=
  s.when (s.rdmaHears q) fun s =>
    let s := if ce then s.ceMark q else s
    if len = 0 then s else s.rdmaRead q va.toNat rkey.toNat len.toNat

/-- INVALID_REQUEST: an RDMA or SEND opcode that the subset leaves out (R410). -/
def execInvalidRequest (q : Fin 256) (s : State) : Host.Outcome State Fault Refusal :=
  s.when (s.rdmaHears q) fun s => s.nakRdma q 1

/-- HOST_LINE_TIMEOUT: the oldest line that has waited longer than ETH_HOSTTMO (R415). -/
def execHostLineTimeout (s : State) : Host.Outcome State Fault Refusal :=
  let l? := s.lateLines.head?
  s.when (s.awake && s.powered && l?.isSome) fun s => match l? with
    | some l => (s.timeoutLine l).pullPorts.finishReads
    | none => s

/-- MALFORMED_MESSAGE: a SEND whose ECP header or body is malformed (R421); `op` is the OPCODE that the ACK echoes. -/
def execMalformedMessage (h : EcpHdr) (op : BitVec 16) (s : State) : Host.Outcome State Fault Refusal :=
  s.when (s.hears h.qp) fun s => s.refuse h op.toNat (if s.life.warm then ST.RESET else ST.MSG)

/-! ### Sessions (R427 to R430) -/

/-- The message that a SESSION_PROOF signs (R427). -/
def State.proofMessage (s : State) (q : Nat) (nonce : List Byte) (sess : Nat) : List Byte :=
  nonce ++ leBytes 2 q ++ leBytes 4 (s.fget F.ECP_QPSTAT_RQPN q) ++
    (leBytes 8 (s.rget .ECP_RGIDH q)).reverse ++ (leBytes 8 (s.rget .ECP_RGIDL q)).reverse ++ leBytes 4 sess

/-- SESSION_OPEN. -/
def State.sessionOpen (s : State) (q : Nat) : State × Answer :=
  if s.flag F.ECP_QPSTAT_SESS q then (s, some (ST.STATE, []))
  else if s.flag F.ECP_QPSTAT_LOCK q then (s, some (ST.AUTHLOCK, []))
  else if s.mgmt.key.isNone then (s, some (ST.NOKEY, []))
  else
    let (x, s) := s.fresh
    let nonce := leBytes 16 x
    let n := s.fget F.ECP_SESSNEXT_NEXT
    let s := s.fset F.ECP_SESSNEXT_NEXT 0 0 ((n + 1) % 2 ^ 32)
    (s.setQp q { s.qp q with nonce := some (nonce, n, s.cc) }, some (ST.OK, nonce ++ leBytes 4 n))

def execSessionOpen (h : EcpHdr) (s : State) : Host.Outcome State Fault Refusal :=
  s.when (s.hears h.qp) fun s => s.ecp h OP.SESSION_OPEN GRP_SESSION true false [] [] fun s => s.sessionOpen h.qp

/-- A failed proof (R428). -/
def State.proofFails (s : State) (q : Nat) : State :=
  let s := (s.bump F.ECP_AUTHFAIL_COUNT q 0 1).raise .authFail q 0 0 0 (s.qpPort q / 4)
  let fails := ((s.qp q).fails.filter fun t => s.cc < t + 960000000) ++ [s.cc]
  if 4 ≤ fails.length then (s.setQp q { s.qp q with fails := [], lockedAt := s.cc }).fset F.ECP_QPSTAT_LOCK q 0 1
  else s.setQp q { s.qp q with fails := fails }

/-- SESSION_PROOF: a nonce serves one proof, within 100 ms. -/
def State.sessionProof (s : State) (q sess : Nat) (tag : List Byte) : State × Answer :=
  let good : Bool := match (s.qp q).nonce, s.mgmt.key with
    | some (n, num, at_), some key => decide (s.cc ≤ at_ + 96000000) && num = sess && tag = hmac key (s.proofMessage q n num)
    | _, _ => false
  let s := s.setQp q { s.qp q with nonce := none }
  if good then (((s.setQp q { s.qp q with lost := 0 }).fset F.ECP_QPSTAT_SESS q 0 1).rset .ECP_SESSION q 0 (0xFF * 2 ^ 32 + sess), some (ST.OK, []))
  else (s.proofFails q, some (ST.AUTH, []))

def execSessionProof (h : EcpHdr) (tag : BitVec 256) (s : State) : Host.Outcome State Fault Refusal :=
  s.when (s.hears h.qp) fun s => s.ecp h OP.SESSION_PROOF GRP_SESSION true false [] [] fun s =>
    s.sessionProof h.qp h.session.toNat (leBytes 32 tag.toNat)

/-- SESSION_CLOSE. -/
def execSessionClose (h : EcpHdr) (s : State) : Host.Outcome State Fault Refusal :=
  s.when (s.hears h.qp) fun s => s.ecp h OP.SESSION_CLOSE GRP_SESSION false false [] [] fun s => (s.closeSession h.qp, some (ST.OK, []))

/-- EVENT_CFG: MINSEV. -/
def execEventCfg (h : EcpHdr) (minsev : BitVec 8) (s : State) : Host.Outcome State Fault Refusal :=
  s.when (s.hears h.qp) fun s => s.ecp h OP.EVENT_CFG GRP_SESSION false false [] [] fun s =>
    (s.fset F.ECP_SESSION_MINSEV h.qp 0 minsev.toNat, some (ST.OK, []))

/-- NONCE_LAPSE: 100 ms after SESSION_OPEN. -/
def execNonceLapse (q : Fin 256) (s : State) : Host.Outcome State Fault Refusal :=
  let ovr : Bool := match (s.qp q).nonce with
    | some (_, _, at_) => decide (at_ + 96000000 ≤ s.cc)
    | none => false
  s.when (s.awake && ovr) fun s => s.setQp q { s.qp q with nonce := none }

/-- AUTHLOCK_EXPIRE: 1 s after the lockout began. -/
def execAuthlockExpire (q : Fin 256) (s : State) : Host.Outcome State Fault Refusal :=
  s.when (s.awake && s.flag F.ECP_QPSTAT_LOCK q && decide ((s.qp q).lockedAt + 960000000 ≤ s.cc)) fun s => s.fset F.ECP_QPSTAT_LOCK q 0 0

end Sys2Proof.Machine
end

