-- ==== Sys2Proof/Machine/RegIo.lean ====
section
/-!
DEFINITION. Reads and writes of registers and of the windows in register space (R16 to R23, R115, R160, R379, R425, R535): what a
register shows, and what a write does beyond the storage of its fields.
-/
namespace Sys2Proof.Machine

/-! ### Where an address leads -/

/-- What an 8-byte access to an address reaches: a register with its instance and index, a memory window, or nothing. -/
inductive RegAt where
  | reg (r : Reg) (i k : Nat)
  /-- the input mailbox -/
  | mailbox
  /-- the output banks and the poll buffer, which the host only reads -/
  | readOnly
  /-- the controller tables, the mirror list and the router windows (RWL) -/
  | table
  /-- no access of 8 bytes: `mbx` where it lies in a mailbox window -/
  | unaligned (mbx : Bool)
  | nothing
  deriving DecidableEq, Repr

/-- A register of a block at an offset of its global part, or of the part of one instance. -/
def regOf (blk : Nat) (glob : Bool) (off : Nat) : Option (Reg × Nat) :=
  (Reg.ofBlock blk).findSome? fun r =>
    let x := r.info
    if x.glob = glob ∧ x.off ≤ off ∧ (off - x.off) % x.stride = 0 ∧ (off - x.off) / x.stride < x.cnt then
      some (r, (off - x.off) / x.stride)
    else none

/-- Whether an address lies in the input mailbox, an output bank or the poll buffer (R89, R115). -/
def mailboxWindow (a : Nat) : Bool := decide (4 ≤ hostRegion a)

/-- An access to register space that is not 8 bytes at an 8-byte aligned address: the stream controller logs one to a mailbox window (R89,
R115), the system controller any other (R18). -/
def State.unalignedReg (s : State) (a : Nat) (mbx : Bool) : State :=
  if mbx then s.errSTR a ST.UNALIGNED 7 else s.errSYS a ST.UNALIGNED 1

/-- R16 to R19: what a device address reaches. -/
def regAt (a : Nat) : RegAt :=
  if a % 8 ≠ 0 then .unaligned (mailboxWindow a)
  else match placeOf a with
  | .reg blk off =>
    if blk = 4 ∧ 0x100000 ≤ off ∧ off < 0x110000 then .mailbox
    else if blk = 4 ∧ (0x200000 ≤ off ∧ off < 0x220000 ∨ 0x300000 ≤ off ∧ off < 0x310000) then .readOnly
    else if blk = 4 ∧ (0x400000 ≤ off ∧ off < 0x420000 ∨ 0x500000 ≤ off ∧ off < 0x520000) then .table
    else if blk = 8 ∧ 0x100000 ≤ off ∧ off < 0x101000 then .table
    else if blk = 16 ∧ 0x200000 ≤ off ∧ off < 0xA40000 then .table
    else if off < 0x1000000 then
      match regOf blk true off with
      | some (r, k) => .reg r 0 k
      | none => .nothing
    else
      let i := (off - 0x1000000) / 0x10000
      match (if i < Reg.instances blk then regOf blk false (off % 0x10000) else none) with
      | some (r, k) => .reg r i k
      | none => .nothing
  | _ => .nothing

/-! ### What a register shows -/

/-- R176: the level of an array in stall cycle `j` of a freeze of length `r`. -/
def freezeLevel (l hold j r : Nat) : Nat := min l (max hold (l - min (j + 1) (r - j) / 2))

/-- ARR_STAT.LEVEL: the level as the freeze in progress has it. While no length is known, the freeze lasts 24 cycles more. -/
def State.arrLevel (s : State) (n : Nat) : Nat :=
  let l := s.fget F.ARR_STAT_LEVEL n
  match s.stall.frz with
  | none => l
  | some f => freezeLevel l (max 4 (min 16 (s.fget F.ARR_FRZHOLD_HOLD))) f.cyc ((s.liftAt f).getD (f.cyc + 24))

/-- The words of a 64-entry map. -/
def mapWord (k : Nat) (p : Nat → Bool) : Nat := bitsOf ((List.range 64).map fun j => p (64 * k + j))

/-- R217: the rounds owed to a channel as its frozen service in progress has left them: a round counts from its start. -/
def State.owedNow (s : State) (c : Chan) : Nat :=
  match s.stall.frz with
  | none => s.owed c
  | some f =>
    let starts := (s.inEffect.filter fun r => (r.src = 1 ∨ r.src = 2) ∧ r.unit = c.num ∧ r.released.isNone).map (effectCycle (s.frzStart f))
    match starts.min? with
    | none => s.owed c
    | some x =>
      if f.cyc < x + 40 then s.owed c else s.owed c - min (s.owed c - s.owedLo c) ((f.cyc - x - 40) / c.roundLen + 1)

/-- STR_STATE. -/
def State.strStat (s : State) : Nat :=
  s.strState + (if s.str.atStep then 16 else 0) + (if s.str.ended then 32 else 0)

/-- ITL_CREDITd: the credits of STREAM, DMA and CONTROL, and the 16 of CICADA, whose lines the model does not carry (assumption 104). -/
def State.creditReg (s : State) (m d : Nat) : Nat := s.streamCredits m d + s.vcCredits m d 1 * 2 ^ 16 + s.vcCredits m d 2 * 2 ^ 32 + 16 * 2 ^ 48

/-- The value of a register that the device derives from other state; `none` where the register is stored as it is. -/
def State.derived (s : State) (r : Reg) (i k : Nat) : Option Nat :=
  let set (hi lo v : Nat) : Option Nat := some (setBits (s.rget r i k) hi lo v)
  match r with
  | .STR_STATE => some s.strStat
  | .STR_SCNT => some (if s.str.starting then 0 else s.str.scnt.toNat)
  | .STR_MBXPRES => some (mapWord k fun j => smGet false s.str.present j)
  | .STR_HSTAT => some (s.str.blk + (if s.stall.frz.isSome then 2 ^ 16 else 0) + bits s.stall.lanes (2 * i + 1) (2 * i) * 2 ^ 17)
  | .STR_STALLREQ => some (s.stallReq i)
  | .COR_FAILMAP => some (mapWord k s.failed)
  | .COR_STAT =>
    let p := match s.physOf (clusterOf i) with
      | some pi => pi % 66
      | none => 0
    some (setBits (setBits (setBits (s.rget r i) 23 23 (halfOfCore i)) 22 16 p) 8 8 (if i % 8 = 0 then 1 else 0))
  | .ARR_STAT => some (setBits (setBits (s.rget r i k) 8 4 (s.arrLevel i)) 13 12 (lastRow (rowmapFailed (s.rget .ARR_ROWMAP i)) - 63))
  | .ARR_DESKEW => some (s.deskewReg i k)
  | .SYS_CHMAPDIG => some s.chmapDigest
  | .VLT_OWED => some (((List.range 4).map fun c => s.owedNow (.vault i c) * 2 ^ (8 * c)).sum)
  | .SSK_OWED => some (((List.range 8).map fun c => s.owedNow (.side i (8 * k + c)) * 2 ^ (8 * c)).sum)
  | .SYS_UTIME => some s.utime
  | .VLT_GCAP => some (((List.range 4096).filter fun j => s.vltState (j / 4) (j % 4) = CH.ONLINE).length)
  | .SSK_GCAP => some (((List.range 256).filter fun j => s.sskState (j / 32) (j % 32) = CH.ONLINE).length)
  | .SSK_STAT =>
    let n := ((List.range 32).filter fun c => s.sskState i c = CH.ONLINE).length
    some (setBits (setBits (s.rget r i) 13 8 n) 1 0 (2 * halfOfStack i + (if isScarab i then 1 else 0)))
  | .KVP_RSVMAP => some (mapWord k fun n => s.flag F.KVP_STAT_RSVTAKEN n)
  | .KVP_STAT =>
    let e := smGet 0 s.kvExh i
    let recent := e ≠ 0 ∧ s.rget .STR_STEP ≤ e
    let waits := s.cmds.any fun c => c.op = OP.KV_REFILL && (leNat c.data).testBit i
    some (setBits (setBits (s.rget r i) 1 1 (if recent then 1 else 0)) 3 3 (if waits then 1 else 0))
  | .WVL_HALTMAP => some (mapWord k fun cl => (List.range 8).any fun ch => s.flag F.WVL_CHCTL_HALTED cl ch)
  | .SCB_GSTAT => some ((if s.licensed 0 then 1 else 0) + bitsOf ((List.range 4).map fun t => s.flag F.SCB_CTL_EN t) * 16)
  | .SCB_ACTIVE => some (bitsOf ((List.range 32).map fun c => (s.sc i c).lease.isSome))
  | .NOC_DEADMAP => some (mapWord k fun pi => decide (pi < 132) && s.routerDark pi)
  | .NOC_MAPDIG => some (s.mapDigest i)
  | .ITL_CLASS =>
    let w (m v : Nat) : Bool := s.fget F.ITL_STAT_WIDTH m = v
    some (s.linkUnits + s.linkClass * 2 ^ 8 + bitsOf ((List.range 16).map fun m => s.itlState m = LK.FENCED) * 2 ^ 32 +
      bitsOf ((List.range 16).map fun m => w m 1) * 2 ^ 48)
  | .ITL_CREDIT => some (s.creditReg i k)
  | .ETH_STAT =>
    set 32 24 (((List.range 256).filter fun q => s.fget F.ECP_QPSTAT_STATE q = 2 && s.qpPort q = i).length)
  | .PWR_COOL => set 63 48 s.coolAge
  | .FUS_STAT => some (s.emptySlot i 0 + s.slotsUsed i * 2 ^ 16 + s.slotsBad i * 2 ^ 32)
  | .FUS_SEL =>
    let n := s.fget F.FUS_SEL_SLOT i
    set 13 12 ((s.slot i n).cls n)
  | .FUS_RECLO => some ((s.slot i (s.fget F.FUS_SEL_SLOT i)).data % 2 ^ 64)
  | .FUS_RECHI => some ((s.slot i (s.fget F.FUS_SEL_SLOT i)).data / 2 ^ 64)
  | .ECP_KEYSTAT => some (match s.mgmt.key with
    | some key => 1 + leNat ((sha256 key).take 4) * 2 ^ 32
    | none => 0)
  | .BBR_OLDEST => some s.bbrOldest
  | .BBR_NEWEST => some s.bbrNewest
  | .BBR_QSTAT => set 10 0 (min 1024 s.bbr.queue.length)
  | .BBR_DEVSTAT => some (setBits (setBits (s.rget r) 25 16 s.bbr.devB.bad.length) 9 0 s.bbr.devA.bad.length)
  | _ => none

/-- Counters of frames, whose packets the model does not count: they read as values that nothing fixes. -/
def Reg.open_ (r : Reg) : Bool := r = .ETH_RXFRM || r = .ETH_TXFRM || r = .ETH_FECCNT

/-- What a read of a register returns: WO fields read 0. The step that a running Molt has reached, and the groups
that a running logic BIST has completed, are open: each ends with one command. -/
def State.regValue (s : State) (r : Reg) (i k : Nat) : Nat × State :=
  if r.open_ then
    let (v, s) := s.fresh
    (v % 2 ^ 64, s)
  else if r = .MLT_STAT ∧ s.flag F.MLT_STAT_BUSY i then
    let (v, s) := s.fresh
    (setBits (s.rget r i k) 11 8 (1 + v % 9), s)
  else if r = .BST_LBSTAT ∧ s.flag F.BST_LBSTAT_BUSY i then
    let n := match s.life.lbist with
      | some b => (b.under.length + 15) / 16
      | none => 0
    let (v, s) := s.fresh
    (setBits (s.rget r i k) 15 8 (v % (n + 1)), s)
  else
    let v := (s.derived r i k).getD (s.rget r i k)
    (v - (v &&& r.info.wo), s)

/-- A read of 8 bytes at a device address: its value and its status. -/
def State.regRead (s : State) (a : Nat) : Nat × Nat × State :=
  match regAt a with
  | .reg r i k =>
    let (v, s) := s.regValue r i k
    (v, ST.OK, s)
  | .mailbox | .readOnly | .table => (s.nat a 8, ST.OK, s)
  | .unaligned mbx =>
    let (v, s) := (s.unalignedReg a mbx).fresh
    (v % 2 ^ 64, ST.UNALIGNED, s)
  | .nothing =>
    let (v, s) := (s.errSYS a ST.ABSENT 2).fresh
    (v % 2 ^ 64, ST.ABSENT, s)

/-! ### What a write does -/

/-- The registers that bit `b` of a block's CTRCLR register clears. -/
def ctrRegs : Reg → List Reg
  | .COR_CTRCLR => [.COR_RESCNT, .COR_LOSTPREC, .COR_ACCOVF, .COR_SCRCORR, .COR_PPOIS]
  | .VLT_CTRCLR => [.VLT_CORRCNT, .VLT_UNCCNT]
  | .WVL_CTRCLR => [.WVL_DESCCNT, .WVL_DROPCNT, .WVL_CANCCNT, .WVL_HOSTCNT]
  | .SSK_CTRCLR => [.SSK_CORRCNT, .SSK_UNCCNT, .SSK_FRZCNT, .SSK_HOSTCNT, .SSK_FILLCNT, .SSK_REDCNT, .SSK_RESCNT]
  | .SCB_CTRCLR => [.SCB_LEASECNT, .SCB_REFUSECNT, .SCB_LEASEDCNT, .SCB_SKIPCNT, .SCB_CORRCNT, .SCB_UNCCNT, .SCB_RESCNT]
  | .NOC_CTRCLR => [.NOC_COLCNT, .NOC_MISSCNT, .NOC_DEADCNT, .NOC_HOSTCNT]
  | .ITL_CTRCLR => [.ITL_CRCCNT, .ITL_REPLAYCNT, .ITL_STALLCNT, .ITL_RETRAINCNT, .ITL_LATECNT]
  | .ETH_CTRCLR => [.ETH_RXFRM, .ETH_TXFRM, .ETH_RXDROP, .ETH_FECCNT, .ETH_PAUSECNT, .ETH_CNPCNT]
  | .CIC_CTRCLR => [.CIC_HBCNT, .CIC_FRMCNT, .CIC_CRCCNT, .CIC_CMPCNT, .CIC_PACECNT]
  | _ => []

/-- A write of a CTRCLR register: the counters whose bits are 1 become 0. ITL_LATECNT, of the device, is cleared by module 0 only. -/
def State.ctrClear (s : State) (r : Reg) (i v : Nat) : State :=
  (ctrRegs r).zipIdx.foldl (fun s p =>
    if v.testBit p.2 then (if p.1 = .ITL_LATECNT then (if i = 0 then s.rset p.1 0 0 0 else s) else s.rset p.1 i 0 0) else s) s

/-- The registers that a record clears with its VALID bit, and the place of that bit (R535 and the register tables). -/
def recordOf : Reg → Option (Nat × List Reg)
  | .SYS_ERRSTAT => some (0, [.SYS_ERRADDR, .SYS_ERRSTAT, .SYS_ERRCNT])
  | .STR_ERRSTAT => some (0, [.STR_ERRADDR, .STR_ERRSTAT, .STR_ERRCNT])
  | .COR_ERRSTAT => some (0, [.COR_ERRADDR, .COR_ERRSTAT, .COR_ERRCNT])
  | .COR_RESLOG1 => some (24, [.COR_RESLOG0, .COR_RESLOG1])
  | .ARR_ERRSTAT => some (0, [.ARR_ERRSCNT, .ARR_ERRSTAT, .ARR_ERRCNT])
  | .VLT_ERRSTAT => some (0, [.VLT_ERRADDR, .VLT_ERRSTAT, .VLT_ERRCNT])
  | .KVP_ERRSTAT => some (0, [.KVP_ERRADDR, .KVP_ERRSTAT, .KVP_ERRCNT])
  | .WVL_ERRSTAT => some (0, [.WVL_ERRADDR, .WVL_ERRSTAT, .WVL_ERRCNT])
  | .SSK_ERRSTAT => some (0, [.SSK_ERRADDR, .SSK_ERRSTAT, .SSK_ERRCNT])
  | .SCB_ERRSTAT => some (0, [.SCB_ERRADDR, .SCB_ERRSTAT, .SCB_ERRCNT])
  | .SCB_RESLOG1 => some (24, [.SCB_RESLOG0, .SCB_RESLOG1])
  | .NOC_ERRSTAT => some (0, [.NOC_ERRADDR, .NOC_ERRSTAT, .NOC_ERRCNT])
  | .NOC_COLLOG1 => some (32, [.NOC_COLLOG0, .NOC_COLLOG1])
  | .ETH_ERRSTAT => some (0, [.ETH_ERRADDR, .ETH_ERRSTAT, .ETH_ERRCNT])
  | .CIC_ERRSTAT => some (0, [.CIC_ERRADDR, .CIC_ERRSTAT, .CIC_ERRCNT])
  | .CIC_DIVLOG3 => some (0, [.CIC_DIVLOG3])
  | .PWR_VMIN => some (63, [.PWR_VMIN, .PWR_VMINT])
  | .BST_KARLOG => some (0, [.BST_KARLOG])
  | .LIC_ERRSTAT => some (0, [.LIC_ERRSTAT])
  | _ => none

/-- Clear a record: its registers return to their reset values. Where the device has set its VALID bit, or an error has reached it, in the
same SCLK cycle, the bit stays set: a first-error record then holds that error (R22, R535), another record what it holds. -/
def State.recordClear (s : State) (r : Reg) (i k : Nat) : State :=
  let x := s.w1cNow (r.addr i k)
  match recordOf r with
  | none => s
  | some (_, rs) =>
    if x.bits ≠ 0 then
      match rs with
      | [ar, sr, cr] => ((s.rset ar i 0 x.addr).rset sr i 0 (x.stat + 1)).rset cr i 0 x.more
      | _ => s
    else
    let s := rs.foldl (fun s x => s.rset x i k x.info.reset) s
    if r = .CIC_DIVLOG3 then ((s.rset .CIC_DIVLOG0 0 0 0).rset .CIC_DIVLOG1 0 0 0).rset .CIC_DIVLOG2 0 0 0 else s

/-- The stored bits of a write: RW and RWL bits as written, W1C bits cleared where the write has a 1, all others as they are. -/
def mergeWrite (x : RegInfo) (old v : Nat) : Nat :=
  let st := x.rw ||| x.rwl
  let kept := old - (old &&& st)
  (kept - (kept &&& (x.w1c &&& v))) ||| (v &&& st)

/-- R21: a write by access types alone; bits of RWL fields are dropped while they are locked. A W1C bit that the device has set in the same
SCLK cycle stays set (R22). -/
def State.fieldWrite (s : State) (r : Reg) (i k v : Nat) : Nat × State :=
  let x := r.info
  let lock := s.locked && x.rwl ≠ 0
  let x := if lock then { x with rwl := 0 } else x
  let x := { x with w1c := x.w1c - (x.w1c &&& (s.w1cNow (r.addr i k)).bits) }
  (if lock then ST.LOCKED else ST.OK, s.rset r i k (mergeWrite x (s.rget r i k) v))

/-- The registers whose write carries out more than the storage of its fields. -/
def Reg.acts (r : Reg) : Bool :=
  r = .STR_GATE || r = .STR_DEBUG || r = .PWR_CLCTL || r = .THM_SNSCLR || r = .WVL_CHCTL || r = .ARR_ROWMAP || r = .ITL_CTL ||
    r = .ETH_CTL || r = .KVP_SAEJOB || !(ctrRegs r).isEmpty || (recordOf r).isSome

/-- What such a write does. -/
def State.actWrite (s : State) (r : Reg) (i k v : Nat) : Nat × State :=
  match r with
  | .STR_GATE => (ST.OK, (s.fieldWrite r i k v).2.gateChange)
  | .STR_DEBUG =>
    let s := (s.fieldWrite r i k v).2
    (ST.OK, if s.flag F.STR_DEBUG_DBGEN then s.debugStep (bits v 31 16) else s.debugOff)
  | .PWR_CLCTL => (if s.locked then ST.LOCKED else ST.OK, s.chrysWrite i (v.testBit 0))
  | .THM_SNSCLR => (ST.OK, s.snsClear (v.testBit 8) (bits v 7 0))
  | .WVL_CHCTL =>
    let pend := if v.testBit 1 then 2 else if v.testBit 0 then 1 else 0
    (ST.OK, if bits v 2 0 = 0 then s else s.wvCommand i k pend (v.testBit 2))
  | .ARR_ROWMAP => s.rowmapWrite i v
  | .ITL_CTL => (ST.OK, s.itlCtl i v)
  | .ETH_CTL => (ST.OK, s.ethCtl i v)
  | .KVP_SAEJOB => s.fieldWrite r i k (if i % 8 = 0 then v else setBits v 42 32 0)
  | _ =>
    match recordOf r with
    | some (b, _) => (ST.OK, if v.testBit b then s.recordClear r i k else s)
    | none => (ST.OK, s.ctrClear r i v)

/-- A write of 8 bytes at a device address: its status. -/
def State.regWrite (s : State) (a v : Nat) : Nat × State :=
  match regAt a with
  | .reg r i k => if r.acts then s.actWrite r i k v else s.fieldWrite r i k v
  | .mailbox =>
    let off := a - inSlot 0
    (if s.replayStandby then ST.STATE else ST.OK, s.mailboxWrite (off / 64) (off % 64) (leBytes 8 v))
  | .readOnly => (ST.ABSENT, s.errSTR a ST.ABSENT 7)
  | .table => if s.locked then (ST.LOCKED, s) else (ST.OK, s.putBytes a (leBytes 8 v))
  | .unaligned mbx => (ST.UNALIGNED, s.unalignedReg a mbx)
  | .nothing => (ST.ABSENT, s.errSYS a ST.ABSENT 2)

/-! ### The commands -/

/-- The values and statuses of consecutive registers. -/
def State.readRegs (a : Nat) : Nat → State → List Nat × List Nat × State
  | 0, s => ([], [], s)
  | n + 1, s =>
    let (v, st, s) := s.regRead a
    let (vs, sts, s) := State.readRegs (a + 8) n s
    (v :: vs, st :: sts, s)

/-- The statuses of writes to consecutive registers. -/
def State.writeRegs (a : Nat) : List Nat → State → List Nat × State
  | [], s => ([], s)
  | v :: vs, s =>
    let (st, s) := s.regWrite a v
    let (sts, s) := State.writeRegs (a + 8) vs s
    (st :: sts, s)

/-- REG_READ: N of 1 to 16. -/
def execRegRead (h : EcpHdr) (addr : BitVec 64) (n : BitVec 8) (s : State) : Host.Outcome State Fault Refusal :=
  s.when (s.hears h.qp) fun s => s.ecp h OP.REG_READ 0 false false [] [] fun s =>
    if n = 0 ∨ 16 < n.toNat then (s, some (ST.DESC, []))
    else
      let (vs, sts, s) := State.readRegs addr.toNat n.toNat s
      (s, some (ST.OK, (vs.flatMap (leBytes 8)) ++ sts.flatMap (leBytes 2)))

/-- REG_WRITE: the values are N of its body. -/
def execRegWrite (h : EcpHdr) (addr : BitVec 64) (vs : List (BitVec 64)) (s : State) : Host.Outcome State Fault Refusal :=
  s.when (s.hears h.qp) fun s => s.ecp h OP.REG_WRITE 0 false false [] [] fun s =>
    if vs = [] ∨ 16 < vs.length then (s, some (ST.DESC, []))
    else
      let (sts, s) := State.writeRegs addr.toNat (vs.map BitVec.toNat) s
      (s, some (ST.OK, sts.flatMap (leBytes 2)))

/-- MEM_READ is taken: its lines are asked for; what answers at once completes at once. -/
def State.memRead (s : State) (h : EcpHdr) (a n : Nat) : State × Answer :=
  if n = 0 ∨ 16 < n then (s, some (ST.DESC, []))
  else if a % 64 ≠ 0 then (s, some (ST.UNALIGNED, []))
  else if !hostMayRead a (64 * n) then (s, some (ST.PROT, []))
  else
    let (req, s) := s.startRead OP.MEM_READ h.qp h.session.toNat h.tag.toNat a (64 * n)
    match s.rdreqs.find? fun r => r.req = req && r.full with
    | some r =>
      let (st, body, s) := s.memReadBody r
      ({ s with rdreqs := s.rdreqs.filter fun x => x.req ≠ req }, some (st, body))
    | none => (s, none)

/-- MEM_READ: its command keeps the number of its request until the lines have come back. -/
def execMemRead (h : EcpHdr) (addr : BitVec 64) (n : BitVec 8) (s : State) : Host.Outcome State Fault Refusal :=
  s.when (s.hears h.qp) fun s => s.ecp h OP.MEM_READ 0 false false [s.nextReq] [] fun s => s.memRead h addr.toNat n.toNat

/-- REGISTER_WRITE: a write of 8 bytes at an address of register space. -/
def execRegisterWrite (addr : BitVec 64) (v : BitVec 64) (s : State) : Host.Outcome State Fault Refusal :=
  s.when s.ready fun s => (s.regWrite addr.toNat v.toNat).2

/-- ERROR_RECORD_CLEAR: a write of 1 to the VALID bit of a record. -/
def execErrorRecordClear (addr : BitVec 64) (s : State) : Host.Outcome State Fault Refusal :=
  match regAt addr.toNat with
  | .reg r i k => s.when (s.ready && (recordOf r).isSome) fun s => s.recordClear r i k
  | _ => s.when false id

/-- COUNTER_CLEAR: a write of bits to a CTRCLR register. -/
def execCounterClear (addr : BitVec 64) (v : BitVec 64) (s : State) : Host.Outcome State Fault Refusal :=
  match regAt addr.toNat with
  | .reg r i _ => s.when (s.ready && !(ctrRegs r).isEmpty) fun s => s.ctrClear r i v.toNat
  | _ => s.when false id

end Sys2Proof.Machine
end

