-- ==== Sys2Proof/Machine/Repair.lean ====
section
/-!
DEFINITION. Repairs as fuse records name them (R510, R516, R519), the tables that hold the repairs in force, and the Molt map of a half
(R511 to R513).
-/
namespace Sys2Proof.Machine

/-! ### Tables and the repairs they hold -/

/-- The repairs in force on a mapped cluster (R510 step 1): its SOFT weak rows, failed connections and failed array rows. -/
def State.clusterRepairs (s : State) (cl p : Nat) : List Nat :=
  (List.range 8).flatMap fun i =>
    let n := 8 * cl + i
    (rowmapFailed (s.rget .ARR_ROWMAP n)).map (recArrRow p i) ++
    (List.range 4).flatMap fun c =>
      (s.chLanes (.vault n c)).map (recConn p i c) ++
      ((s.weakRows n c).filter fun w => bits w.2 63 61 = 2).map fun w =>
        recVaultRow p i c (bits w.2 23 20) (bits w.2 19 10) (bits w.2 2 0)

/-- The failed pins of a half's stacks. -/
def State.pinRepairs (s : State) (h : Nat) : List Nat :=
  ((List.range 8).filter fun k => halfOfStack k = h).flatMap fun k => (List.range 32).flatMap fun c =>
    (s.chLanes (.side k c)).map (recPin k c)

/-- Every soft repair of a half: those known of its physical units and those of its mapped clusters and stacks. -/
def State.softRepairs (s : State) (h : Nat) : List Nat :=
  (((s.life.found.filter fun p => p.1 = h).map (·.2)) ++
   ((List.range 64).flatMap fun j => match s.physOf (64 * h + j) with
     | some pi => s.clusterRepairs (64 * h + j) (pi % 66)
     | none => []) ++ s.pinRepairs h).eraseDups

/-- The soft repairs that no valid record holds. -/
def State.openRepairs (s : State) (h : Nat) : List Nat :=
  let v := s.validRecs h
  (s.softRepairs h).filter fun x => !v.contains x

/-- Keep the soft repairs of a half by physical unit. -/
def State.keepFound (s : State) (h : Nat) (xs : List Nat) : State :=
  { s with life := { s.life with found := (s.life.found.filter fun p => p.1 ≠ h) ++ xs.eraseDups.map fun x => (h, x) } }

/-- A failed connection of a record enters the channel's list; a third failed symbol maps the channel out (R224). -/
def State.tableLine (s : State) (c : Chan) (j : Nat) : State :=
  let known := s.chLanes c
  let syms := (known.map c.symOf).eraseDups
  if known.contains j ∨ (syms.contains (c.symOf j) ∧ 2 ≤ known.length) then s
  else if 2 ≤ syms.length ∧ !syms.contains (c.symOf j) then s.mapOut c 2
  else match c with
    | .vault n ch =>
      if s.flag F.VLT_LANE_VA n ch then (s.fset F.VLT_LANE_VB n ch 1).fset F.VLT_LANE_CONNB n ch j
      else (s.fset F.VLT_LANE_VA n ch 1).fset F.VLT_LANE_CONNA n ch j
    | .side k ch =>
      if s.flag F.SSK_PIN_VA k ch then (s.fset F.SSK_PIN_VB k ch 1).fset F.SSK_PIN_PINB k ch j
      else (s.fset F.SSK_PIN_VA k ch 1).fset F.SSK_PIN_PINA k ch j

/-- A repaired row enters the channel's weak-row list, SOFT or FUSED. -/
def State.applyRow (s : State) (n c x : Nat) (fused : Bool) : State :=
  match (s.weakRows n c).find? fun w => bits w.2 63 61 = 0 with
  | some (i, _) => s.rset .VLT_WEAK n (16 * c + i)
      ((if fused then 3 else 2) * 2 ^ 61 + recBank x * 2 ^ 20 + recRow x * 2 ^ 10 + recSpare x)
  | none => s

/-- One record applied to a core of logical cluster `cl`. -/
def State.applyRec (s : State) (cl : Nat) (fused : Bool) (x : Nat) : State :=
  let n := 8 * cl + recCore x
  if recType x = RT.VAULT_ROW then s.applyRow n (recChan x) x fused
  else if recType x = RT.VAULT_CONN then s.tableLine (.vault n (recChan x)) (recIndex x)
  else s

/-- R181: ARR_ROWMAP of the cores of logical cluster `cl`, from the ARR_ROW records among a list. -/
def State.loadRows (s : State) (cl : Nat) (xs : List Nat) : State :=
  (List.range 8).foldl (fun s i =>
    let rows := (xs.filter fun x => recType x = RT.ARR_ROW && recCore x = i).map recIndex
    s.rowmapApply (8 * cl + i) ((rows.eraseDups.take 2).zipIdx.map fun r => (r.1 + 128) * 2 ^ (8 * r.2)).sum) s

/-- R181, R510: a Molt loads ARR_ROWMAP of a cluster that stays where it is from the fuse records and the repairs in force. -/
def State.reloadRows (s : State) (cl p : Nat) : State :=
  s.loadRows cl (((s.validRecs (cl / 64)).filter fun x => recUnit x = p) ++ s.clusterRepairs cl p)

/-- The tables of a logical cluster that physical cluster `p` of its half now carries, built from the records of that cluster and its
soft repairs; a channel that failed training is mapped out. -/
def State.buildTables (s : State) (cl p : Nat) : State :=
  let h := cl / 64
  let mine (xs : List Nat) : List Nat := xs.filter fun x => recUnit x = p && recType x ≠ RT.SIDE_PIN
  let fused := mine (s.validRecs h)
  let soft := mine ((s.life.found.filter fun q => q.1 = h).map (·.2)) |>.filter fun x => !fused.contains x
  let s := (List.range 8).foldl (fun s i =>
    let n := 8 * cl + i
    ((s.rwipe .VLT_CHMAP n).rwipe .VLT_LANE n).rwipe .VLT_WEAK n) s
  let s := s.loadRows cl (fused ++ soft)
  let s := soft.foldl (fun s x => s.applyRec cl false x) (fused.foldl (fun s x => s.applyRec cl true x) s)
  s.life.outs.foldl (fun s o =>
    if o / 32 = 66 * h + p then s.mapOut (.vault (8 * cl + o / 4 % 8) (o % 4)) 1 else s) s

/-- The pin records of a half applied to its stacks. -/
def State.buildPins (s : State) (h : Nat) (xs : List Nat) : State :=
  (xs.filter fun x => recType x = RT.SIDE_PIN && halfOfStack (recUnit x) = h && decide (recUnit x < 8)).foldl
    (fun s x => s.tableLine (.side (recUnit x) (recSchan x)) (recIndex x)) s

/-! ### Zeroing -/

/-- A range of memory becomes zero data with valid check bytes. -/
def State.zeroRange (s : State) (a n : Nat) : State :=
  { s with mem := s.mem.filter fun c => !(decide (a ≤ c.1) && decide (c.1 < a + n)),
           syn := s.syn.filter fun c => !(decide (a ≤ 32 * c.1) && decide (32 * c.1 < a + n)),
           gpois := s.gpois.filter fun c => !(decide (a ≤ 8 * c.1) && decide (8 * c.1 < a + n)),
           undef := undefCut s.undef a (a + n) }

/-- R123: the scratch of a core is zero data without poison. -/
def State.zeroScratch (s : State) (n : Nat) : State := s.zeroRange (scratchAddr n 0) 0x180000

/-! ### The map (R511, R512) -/

/-- Whether a valid record retires a physical cluster, or a soft repair of the half does. -/
def State.retireRec (s : State) (h p : Nat) : Bool :=
  (s.validRecs h ++ (s.life.found.filter fun q => q.1 = h).map (·.2)).any fun x => recType x = RT.CLUSTER_RETIRE && recUnit x = p

/-- Whether a physical cluster failed its latest known-answer runs, or its latest LBIST. -/
def State.karBad (s : State) (h p : Nat) : Bool := s.fget F.BST_KARFAIL_FAILED h (p / 64) |>.testBit (p % 64)
def State.lbistBad (s : State) (h p : Nat) : Bool := s.fget F.BST_LBFAIL_FAILED h (p / 64) |>.testBit (p % 64)

/-- Why a physical cluster is not usable, as CAUSE of CLUSTER_RETIRE; `failedAt` are those that carried a failed core. -/
def State.unusable (s : State) (h : Nat) (failedAt : List Nat) (p : Nat) : Option Nat :=
  if s.working (66 * h + p) ≤ 2 ∨ s.fget F.PWR_CLSTAT_STATE (66 * h + p) = CL.DARK then some 1
  else if s.karBad h p then some 2
  else if s.lbistBad h p then some 3
  else if failedAt.contains p then some 4
  else if s.retireRec h p then some 0
  else none

/-- Passes 1 and 3: each logical cluster that has no place yet keeps its old one where the list has it. -/
def keepPass (old map : List (Option Nat)) (av : List Nat) : List (Option Nat) × List Nat :=
  (old.zip map).foldl (fun (r : List (Option Nat) × List Nat) q =>
    match q with
    | (some p, none) => if r.2.contains p then (r.1 ++ [some p], r.2.filter (· ≠ p)) else (r.1 ++ [none], r.2)
    | (_, m) => (r.1 ++ [m], r.2)) ([], av)

/-- Passes 2 and 4: each logical cluster that has no place yet takes the first of the list. -/
def fillPass (map : List (Option Nat)) (av : List Nat) : List (Option Nat) × List Nat :=
  map.foldl (fun (r : List (Option Nat) × List Nat) m =>
    match m, r.2 with
    | none, p :: av => (r.1 ++ [some p], av)
    | _, _ => (r.1 ++ [m], r.2)) ([], av)

/-- Pass 5: while an unmapped logical cluster lies below a mapped one, the highest mapped one moves into the lowest. -/
def compact : Nat → List (Option Nat) → List (Option Nat)
  | 0, m => m
  | fuel + 1, m =>
    let lo := m.findIdx Option.isNone
    let hi := m.length - 1 - m.reverse.findIdx Option.isSome
    if m.all Option.isNone ∨ hi ≤ lo then m
    else compact fuel ((m.set lo ((m[hi]?).getD none)).set hi none)

/-- R512. -/
def moltMap (on thr : List Nat) (old : List (Option Nat)) : List (Option Nat) :=
  let r := keepPass old (old.map fun _ => none) on
  let r := fillPass r.1 r.2
  let t := keepPass old r.1 thr
  let t := fillPass t.1 t.2
  compact 64 t.1

/-- The map in force of a half. -/
def State.mapOf (s : State) (h : Nat) : List (Option Nat) := (List.range 64).map fun j => (s.physOf (64 * h + j)).map (· % 66)

/-- The map that a Molt of the half builds. -/
def State.newMap (s : State) (h : Nat) (failedAt : List Nat) (old : List (Option Nat)) : List (Option Nat) :=
  let us := (List.range 66).filter fun p => (s.unusable h failedAt p).isNone
  moltMap (us.filter fun p => s.working (66 * h + p) = 4) (us.filter fun p => s.working (66 * h + p) = 3) old

/-- Logical clusters whose physical cluster differs. -/
def movedOf (old map : List (Option Nat)) : List Nat := (List.range 64).filter fun j => (map[j]?).getD none ≠ (old[j]?).getD none

/-- Store a map of a half. -/
def State.setMap (s : State) (h : Nat) (map : List (Option Nat)) : State :=
  (List.range 8).foldl (fun s k =>
    s.rset .MLT_MAP h k (((List.range 8).map fun j => match (map[8 * k + j]?).getD none with
      | some p => (128 + p) * 2 ^ (8 * j)
      | none => 0).sum)) s

/-- The page-pool settings of a moved core start anew, and nothing of the core itself is left. -/
def State.freshCore (s : State) (n : Nat) : State :=
  let s := ((Reg.ofBlock 14).filter fun r => !r.info.glob).foldl (fun s r => s.rwipe r n) s
  { (s.setCore n {}) with vch := s.vch.filter fun p => p.1 / 4 ≠ n, sae := s.sae.filter fun p => p.1 ≠ n }

/-- R513: a logical cluster moves to another physical cluster, or onto one for the first time: its memory, its scratch and its settings
start anew. -/
def State.moveCluster (s : State) (cl p : Nat) : State :=
  let s := (List.range 8).foldl (fun s i =>
    let n := 8 * cl + i
    ((s.freshCore n).zeroRange (n * 0x8000000) 0x8000000).zeroScratch n) s
  let s := ((Reg.ofBlock 15).filter fun r => !r.info.glob).foldl (fun s r => s.rwipe r cl) s
  ({ s with wvl := s.wvl.filter fun q => q.1 ≠ cl }).buildTables cl p

/-- R513: the effects of a map of a half: `old` is the map before, `fresh` says that every mapped cluster starts anew (bring-up). The
second result lists the moved logical clusters. -/
def State.applyMap (s : State) (h : Nat) (old map : List (Option Nat)) (fresh : Bool) : State × List Nat :=
  let moved := movedOf old map
  let s := s.setMap h map
  let s := (List.range 64).foldl (fun s j =>
    match (map[j]?).getD none with
    | some p => if fresh ∨ moved.contains j then s.moveCluster (64 * h + j) p else s.reloadRows (64 * h + j) p
    | none => s) s
  let s := if moved = [] ∨ fresh then s
    else (List.range 132).foldl (fun s q => s.putBytes (routerWin (q / 66) (q % 66) 0) (List.replicate 64 0)) s
  let s := (List.range 66).foldl (fun s p =>
    let st := s.fget F.PWR_CLSTAT_STATE (66 * h + p)
    let on := map.contains (some p)
    let dark := decide (s.working (66 * h + p) ≤ 2)
    if dark ∨ st = CL.DARK then s.fset F.PWR_CLSTAT_STATE (66 * h + p) 0 CL.DARK
    else if on then (if st = CL.SPARE_OFF ∨ st = CL.ON ∨ st = CL.THREE then s.fset F.PWR_CLSTAT_STATE (66 * h + p) 0 (s.onState (66 * h + p)) else s)
    else s.fset F.PWR_CLSTAT_STATE (66 * h + p) 0 CL.SPARE_OFF) s
  let s := (List.range 64).foldl (fun s j => (List.range 8).foldl (fun s i =>
    let n := 512 * h + 8 * j + i
    match (map[j]?).getD none with
    | some _ => (s.fset F.COR_STAT_FAILED n 0 0).fset F.COR_STAT_FCAUSE n 0 0
    | none => (s.failCore n FC.KAR).fset F.COR_STAT_FCAUSE n 0 FC.KAR) s) s
  (s.floorUpdate, moved)

/-- MLT_RETIRED: the clusters of a half that a Molt sheds. -/
def State.retire (s : State) (h : Nat) (failedAt : List Nat) : State :=
  (List.range 66).foldl (fun s p =>
    if (s.unusable h failedAt p).isSome then s.rset .MLT_RETIRED h (p / 64) (s.rget .MLT_RETIRED h (p / 64) ||| 2 ^ (p % 64)) else s) s

/-! ### Pending-repair entries (R510, R548) -/

/-- The entries of a half's pending-repair record: three items each, MORE on all but the last. -/
def State.repairEntries (s : State) (h : Nat) (xs : List Nat) : List BbrEntry :=
  let parts := (max 1 xs.length + 2) / 3
  (List.range parts).map fun i =>
    let items := (xs.drop (3 * i)).take 3
    s.bbrEntry 5 (Config.entrySev 5 % 256) (2 * h + (if i + 1 < parts then 1 else 0))
      (leBytes 1 h ++ leBytes 1 i ++ leBytes 1 items.length ++ items.flatMap (leBytes 7))

/-- The entries that the rings hold, in order. -/
def State.ringEntries (s : State) : List (List Byte) :=
  let all := (s.bbr.devA.held ++ s.bbr.devB.held).map (·.2)
  all.foldl (fun l e =>
    let q := leNat (e.take 8)
    if l.any fun (x : List Byte) => leNat (x.take 8) = q then l
    else (l.filter fun (x : List Byte) => leNat (x.take 8) < q) ++ [e] ++ l.filter fun (x : List Byte) => q < leNat (x.take 8)) []

/-- The items of the newest complete pending-repair record of a half in a list of entries. -/
def pendingItems (h : Nat) (es : List (List Byte)) : List Nat :=
  let step (r : List Nat × List Nat) (e : List Byte) : List Nat × List Nat :=
    let f (o n : Nat) : Nat := leNat ((e.drop o).take n)
    if f 8 2 = 5 ∧ f 32 1 = h then
      let items := (List.range (min 3 (f 34 1))).map fun i => f (35 + 7 * i) 7
      let acc := (if f 33 1 = 0 then [] else r.1) ++ items
      if f 11 1 % 2 = 1 then (acc, r.2) else ([], acc)
    else r
  (es.foldl step ([], [])).2

end Sys2Proof.Machine
end

