-- ==== Sys2Proof/Machine/Licence.lean ====
section
/-!
DEFINITION. Field licences and the service time (R525 to R529).
-/
namespace Sys2Proof.Machine

/- The causes of LIC_ERRSTAT. -/
namespace LC
abbrev FORMAT := 1
abbrev UID := 2
abbrev KEY := 3
abbrev SIG := 4
abbrev SERIAL := 5
abbrev EXPIRED := 6
abbrev FULL := 7
end LC

/-- The fields of a licence of R525 that its checks and its effect use. -/
structure Lic where
  kind : Nat
  keyid : Nat
  uid : Nat
  serial : Nat
  target : Nat
  features : Nat
  notAfter : Nat
  deriving DecidableEq, Repr

def licOf (d : List Byte) : Lic :=
  let f (o n : Nat) : Nat := leNat ((d.drop o).take n)
  { kind := f 5 1, keyid := f 6 1, uid := f 8 8, serial := f 16 4, target := f 20 4, features := f 24 1, notAfter := f 32 8 }

/-- The first check of R527: what the layout of R525 fixes. -/
def licFormatOk (d : List Byte) : Bool :=
  let f (o n : Nat) : Nat := leNat ((d.drop o).take n)
  let x := licOf d
  f 0 4 = 0x4C494331 && f 4 1 = 1 && decide (x.kind ≤ 1) && f 7 1 = 0 && f 25 7 = 0 && f 40 24 = 0 && decide (x.features < 8) &&
    (x.kind = 0 || x.features = 0) && decide (x.serial ≠ 0) && (x.kind = 1 || x.target = 0)

/-- The lowest free grant slot. -/
def State.freeGrant (s : State) : Option Nat := (List.range 16).find? fun k => !s.life.grants.any fun g => g.1 = k

/-- R527: the first check that fails: status and cause. -/
def State.licRefusal (s : State) (d : List Byte) : Option (Nat × Nat) :=
  let x := licOf d
  if !licFormatOk d then some (ST.DESC, LC.FORMAT)
  else if x.uid ≠ s.rget .LIC_UID then some (ST.LICENCE, LC.UID)
  else if 3 < x.keyid ∨ (s.fget F.LIC_STAT_KEYREV).testBit x.keyid then some (ST.LICENCE, LC.KEY)
  else if !Config.sigValid d then some (ST.LICENCE, LC.SIG)
  else if s.life.revoked.contains x.serial ∨ s.life.grants.any (fun g => g.2.1 = x.serial) then some (ST.LICENCE, LC.SERIAL)
  else if x.kind = 0 ∧ x.notAfter ≠ 0 ∧ x.notAfter ≤ s.rget .LIC_SVCTIME then some (ST.LICENCE, LC.EXPIRED)
  else if x.kind = 0 ∧ s.freeGrant.isNone ∨ x.kind = 1 ∧ !s.life.revoked.contains x.target ∧ 64 ≤ s.life.revoked.length then
    some (ST.LICFULL, LC.FULL)
  else none

/-- LIC_ERRSTAT keeps the first failure (R535). -/
def State.errLIC (s : State) (status cause : Nat) : State :=
  if s.flag F.LIC_ERRSTAT_VALID then s else (s.w1cMark .LIC_ERRSTAT 0 0 1).rset .LIC_ERRSTAT 0 0 (errStat status cause + 1)

/-- A verified grant, or none, in the registers of a slot. -/
def State.showGrant (s : State) (k : Nat) (g : Option (Nat × Nat × Nat)) : State :=
  match g with
  | some (serial, features, na) => (s.rset .LIC_SLOTA 0 k (serial * 2 ^ 32 + 256 + features)).rset .LIC_SLOTB 0 k na
  | none => (s.rset .LIC_SLOTA 0 k 0).rset .LIC_SLOTB 0 k 0

/-- The slots that hold a serial become free. -/
def State.dropGrant (s : State) (serial : Nat) : State :=
  let ks := (s.life.grants.filter fun g => g.2.1 = serial).map (·.1)
  ks.foldl (fun s k => s.showGrant k none) { s with life := { s.life with grants := s.life.grants.filter fun g => g.2.1 ≠ serial } }

/-- A LICENCE entry of the black box (R548): kind 0 GRANT, 1 REVOKE, 2 lapsed. -/
def State.licEntry (s : State) (kind sev serial na : Nat) : State :=
  s.bbrPut (s.bbrEntry 8 sev 0 (leBytes 1 kind ++ leBytes 1 s.features ++ leBytes 2 0 ++ leBytes 4 serial ++ leBytes 8 na))

/-- An accepted licence is stored (R528). -/
def State.licStore (s : State) (x : Lic) : State :=
  let s := if x.kind = 0 then
      let k := s.freeGrant.getD 0
      { s with life := { s.life with grants := s.life.grants ++ [(k, x.serial, x.features, x.notAfter)] } }.showGrant k
        (some (x.serial, x.features, x.notAfter))
    else
      let s := s.dropGrant x.target
      if s.life.revoked.contains x.target then s else { s with life := { s.life with revoked := s.life.revoked ++ [x.target] } }
  ((s.raise .licInstall 0 0 0 x.serial).licEntry x.kind 2 x.serial x.notAfter).licenceChanged

/-- LICENCE_INSTALL completes when its change takes effect. -/
def State.licInstall (s : State) (d : List Byte) : State × Answer :=
  if d.length ≠ 160 then (s.errLIC ST.DESC LC.FORMAT, some (ST.DESC, []))
  else match s.licRefusal d with
    | some (st, cause) => (s.errLIC st cause, some (st, []))
    | none =>
      let wait := s.running
      let s := s.licStore (licOf d)
      (s, if wait then none else some (ST.OK, []))

/-- LICENCE_INSTALL: the bytes of its body. -/
def execLicenceInstall (h : EcpHdr) (d : List Byte) (s : State) : Host.Outcome State Fault Refusal :=
  s.when (s.hears h.qp) fun s => s.ecp h OP.LICENCE_INSTALL GRP_LICENCE false false [] [] fun s => s.licInstall d

/-- LICENCE_LAPSE of a grant in force whose NOT_AFTER the service time has reached (R529). -/
def execLicenceLapse (k : Fin 16) (s : State) : Host.Outcome State Fault Refusal :=
  let na := s.rget .LIC_SLOTB 0 k
  let serial := s.fget F.LIC_SLOTA_SERIAL 0 k
  s.when (s.awake && s.flag F.LIC_SLOTA_VALID 0 k && decide (na ≠ 0 ∧ na ≤ s.rget .LIC_SVCTIME)) fun s =>
    (((s.dropGrant serial).raise .licLapse 0 0 0 serial).licEntry 2 4 serial na).licenceChanged

/-- SVCTIME_TICK: one second more with VDD_AON present; every 60 s it is saved (R526). -/
def execSvctimeTick (s : State) : Host.Outcome State Fault Refusal :=
  s.when s.life.aon fun s =>
    let s := s.rset .LIC_SVCTIME 0 0 (s.rget .LIC_SVCTIME + 1)
    let n := s.life.svcSince + 1
    if 60 ≤ n then { s with life := { s.life with svcSince := 0 } }.bbrPut s.svcEntry
    else { s with life := { s.life with svcSince := n } }

end Sys2Proof.Machine
end

