-- ==== Sys2Proof/Machine/Blackbox.lean ====
section
/-!
DEFINITION. The black box (R543 to R551): its rings, its programming and erasing, and the host's reads and acknowledgements.
-/
namespace Sys2Proof.Machine

/-! ### Rings (R544) -/

/-- Entry places of a sector, and sectors of a ring. -/
def SECTOR : Nat := 1024
def SECTORS : Nat := 512

/-- The sector `n` good sectors after a sector; the sector itself where every sector is bad. -/
def nextGood (bad : List Nat) (sec n : Nat) : Nat :=
  let l := ((List.range SECTORS).map fun i => (sec + 1 + i) % SECTORS).filter fun x => !bad.contains x
  (l[n]?).getD sec

/-- An entry takes the place at the write position, which moves on. -/
def BbrDev.place (d : BbrDev) (b : List Byte) : BbrDev :=
  let d := { d with held := smIns d.held d.pos b }
  if d.pos % SECTOR + 1 < SECTOR then { d with pos := d.pos + 1 }
  else { d with pos := nextGood d.bad (d.pos / SECTOR) 0 * SECTOR, ahead := d.ahead - 1 }

/-- The sector in use failed its read-back: it is skipped from now on. -/
def BbrDev.skip (d : BbrDev) : BbrDev :=
  let sec := d.pos / SECTOR
  let bad := d.bad ++ [sec]
  { d with bad := bad, pos := nextGood bad sec 0 * SECTOR, ahead := d.ahead - 1 }

/-- A background erase of the next sector ends, good or bad. -/
def BbrDev.erase (d : BbrDev) (good : Bool) : BbrDev :=
  let sec := nextGood d.bad (d.pos / SECTOR) d.ahead
  let held := d.held.filter fun p => p.1 / SECTOR ≠ sec
  if good then { d with held := held, ahead := d.ahead + 1 } else { d with held := held, bad := d.bad ++ [sec] }

/-- The device has room: the last place of a sector waits until the next one is erased. -/
def BbrDev.room (d : BbrDev) : Bool := decide (d.pos % SECTOR + 1 < SECTOR) || decide (0 < d.ahead)

/-- A device by letter: true BBR-B. -/
def State.bbrDev (s : State) (b : Bool) : BbrDev := if b then s.bbr.devB else s.bbr.devA
def State.setBbrDev (s : State) (b : Bool) (d : BbrDev) : State :=
  { s with bbr := if b then { s.bbr with devB := d } else { s.bbr with devA := d } }
def State.bbrOk (s : State) (b : Bool) : Bool := s.flag (if b then F.BBR_DEVSTAT_OKB else F.BBR_DEVSTAT_OKA)

/-- The device that the copy in progress goes to: entry n first to BBR-A when n is even; a lost device is passed over (R543). -/
def State.bbrTarget (s : State) : Option Bool :=
  match s.bbr.cur with
  | none => none
  | some (n, _, second) =>
    let first := decide (n % 2 = 1)
    some (if second then !first else if s.bbrOk first then first else !first)

/-! ### Programming and erasing -/

/-- R424: the answer of a BBR_READ of `count` entries from `first`. -/
def State.bbrReadBody (s : State) (first count : Nat) : Nat × List Byte :=
  let es := (List.range count).map fun i => s.bbrRead (first + i)
  (if es.all (·.2) then ST.OK else ST.ABSENT, es.flatMap (·.1))

/-- Whether the first copy of an entry from `first` on is still being written: a read waits for it (R549). -/
def State.bbrBusy (s : State) (first count : Nat) : Bool := match s.bbr.cur with
  | some (n, _, false) => decide (first ≤ n) && decide (n < first + count)
  | _ => false

/-- A BBR_READ that waited for a first copy completes. -/
def State.bbrReadWaits (s : State) : State := match s.cmdOf OP.BBR_READ with
  | some c => match c.args with
    | [first, count] => if s.bbrBusy first count then s else
        let a := s.bbrReadBody first count
        s.complete OP.BBR_READ a.1 a.2
    | _ => s
  | none => s

/-- The entry being programmed is done; the next one starts. -/
def State.bbrNextEntry (s : State) : State := { s with bbr := { s.bbr with cur := none } }.bbrStart

/-- A copy ends: 0 programmed and read back, 1 read back wrong, 2 the device does not respond. -/
def State.bbrProgram (s : State) (result : Nat) : State :=
  match s.bbr.cur, s.bbrTarget with
  | some (n, b, second), some dev =>
    let s := match result with
      | 0 =>
        let s := s.setBbrDev dev ((s.bbrDev dev).place b)
        if !second && s.bbrOk (!dev) then { s with bbr := { s.bbr with cur := some (n, b, true) } } else s.bbrNextEntry
      | 1 => s.setBbrDev dev (s.bbrDev dev).skip
      | _ =>
        let s := s.fset (if dev then F.BBR_DEVSTAT_OKB else F.BBR_DEVSTAT_OKA) 0 0 0
        if second || !s.bbrOk (!dev) then s.bbrNextEntry else s
    s.bbrReadWaits
  | _, _ => s

/-- BBR_PROGRAM: the copy in progress ends. -/
def execBbrProgram (result : Fin 3) (s : State) : Host.Outcome State Fault Refusal :=
  let ready : Bool := match s.bbrTarget with
    | some dev => (s.bbrDev dev).room && s.bbrOk dev
    | none => false
  s.when (s.life.aon && ready) fun s => s.bbrProgram result

/-- BBR_ERASE: a background erase of BBR-A (false) or BBR-B ends, good or bad. -/
def execBbrErase (dev good : Bool) (s : State) : Host.Outcome State Fault Refusal :=
  s.when (s.life.aon && s.bbrOk dev && decide ((s.bbrDev dev).ahead < 2) && decide ((s.bbrDev dev).bad.length + 4 < SECTORS)) fun s =>
    s.setBbrDev dev ((s.bbrDev dev).erase good)

/-! ### The host's commands -/

/-- BBR_READ: FIRST and COUNT of its body. -/
def execBbrRead (h : EcpHdr) (first : BitVec 64) (count : BitVec 8) (s : State) : Host.Outcome State Fault Refusal :=
  let (f, n) := (first.toNat, count.toNat)
  s.when (s.hears h.qp) fun s => s.ecp h OP.BBR_READ GRP_BBR false false [f, n] [] fun s =>
    if n = 0 ∨ 16 < n then (s, some (ST.DESC, []))
    else if s.bbrBusy f n then (s, none)
    else (s, some (s.bbrReadBody f n))

/-- BBR_ACK: the pending SEQ writes the ACK entry and ends the refusal of R498 (R551). -/
def execBbrAck (h : EcpHdr) (seq : BitVec 64) (s : State) : Host.Outcome State Fault Refusal :=
  s.when (s.hears h.qp) fun s => s.ecp h OP.BBR_ACK GRP_BBR false false [] [] fun s =>
    if s.rget .BBR_PENDING = 0 ∨ s.rget .BBR_PENDING ≠ seq.toNat then (s, some (ST.DESC, []))
    else ((s.rset .BBR_PENDING 0 0 0).bbrPut (s.bbrEntry BBR_ACK 1 0 (leBytes 8 seq.toNat)), some (ST.OK, []))

end Sys2Proof.Machine
end

