-- ==== Sys2Proof/Machine/Mgmt.lean ====
section
/-!
DEFINITION. The management port (R431 to R435, R492, R572, R573).
-/
namespace Sys2Proof.Machine

/-- The port serves every command; with the shutdown latch in force, or with only VDD_AON, it serves STATUS, TELEM and the black box
(R550). -/
def State.mgmtFull (s : State) : Bool := s.life.aon && !s.flag F.PWR_SHUT_LATCH && s.powered

/-- The alert sources (R435): bit 0 an event, 1 a shutdown record that awaits BBR_ACK, 2 stale coolant telemetry, 3 a refused KEY_SET or
KEY_CLEAR. -/
def State.alertSources (s : State) : Nat :=
  s.mgmt.alerts + (if s.rget .BBR_PENDING = 0 then 0 else 2) + (if s.pow.stale then 4 else 0)

/-- MGMT_ALERT_N is driven low. -/
def State.alertLow (s : State) : Bool := s.life.aon && s.alertSources ≠ 0

/-- STATUS: its reply, and the latched sources are cleared. -/
def execStatus (s : State) : Host.Outcome State Fault Refusal :=
  s.when s.life.aon fun s =>
    let key := if s.mgmt.key.isSome then 1 else 0
    let b := (List.range 16).map (Config.statusByte (s.fget F.BST_BRINGUP_PHASE) s.strState (s.fget F.PWR_SHUT_LATCH) key s.alertSources s.mgmt.status)
    s.setMgmt { s.mgmt with reply := b, alerts := 0 }

/-- The highest of some temperatures, 0 where there are none. -/
def hottest (l : List Int) : Int := match l with
  | [] => 0
  | x :: xs => xs.foldl max x

/-- The reply of TELEM (R492). -/
def State.telem (s : State) : List Byte :=
  let work (i hi lo : Nat) : Int := sext 16 (bits (s.rget .THM_WORK i) hi lo)
  let mapped := (List.range 128).filter fun i => (s.physOf i).isSome
  let temp (l : List Int) : List Byte := leBytes 2 (unsext 16 (hottest l))
  let st (f : Nat → Bool) : Nat := ((List.range 132).filter fun p => f (s.fget F.PWR_CLSTAT_STATE p)).length
  let flags := bitsOf [s.pow.stale, s.flag F.PWR_SHUT_LATCH, s.rget .BBR_PENDING ≠ 0]
  let codes := (List.range 132).flatMap fun p => (List.range 4).map fun r => s.fget F.PWR_VMIN_CODE p r
  let sus := ((List.range 136).map fun i => s.fget F.THM_SNS_SUSA i + s.fget F.THM_SNS_SUSB i).sum
  let hot := ((List.range 1024).map fun n => ((List.range 4).filter fun c => 2 ≤ s.fget (F.VLT_BAND_BAND c) n).length).sum
  leBytes 2 (s.fget F.PWR_MEAS_PM) ++ leBytes 2 (s.fget F.PWR_CAP_CAP) ++ leBytes 1 (s.fget F.STR_GATE_GATE_EFF) ++
    leBytes 1 (s.fget F.STR_GATE_GATE_PWR) ++ leBytes 1 (s.fget F.PWR_CAP_BIND) ++ leBytes 1 flags ++
    temp (mapped.map fun i => work i 15 0) ++ temp (mapped.map fun i => work i 31 16) ++
    temp ((List.range 8).map fun k => work (128 + k) 15 0) ++ leBytes 2 ((codes.min?).getD 0) ++
    leBytes 2 (s.fget F.PWR_COOL_INLET) ++ leBytes 2 (s.fget F.PWR_COOL_FLOW) ++ leBytes 2 s.coolAge ++
    leBytes 2 (((List.range 132).map fun p => 4 - s.working p).sum) ++ leBytes 1 (st fun x => x = CL.THREE) ++
    leBytes 1 (st fun x => x = CL.DARK) ++ leBytes 1 (st fun x => x = CL.ENTERING || x = CL.CHRYSALIS || x = CL.LEAVING) ++
    leBytes 1 sus ++ leBytes 2 hot ++ leBytes 2 (s.fget F.PWR_RAIL_VIN 0 0) ++ leBytes 2 (s.fget F.PWR_RAIL_VIN 0 1) ++ leBytes 6 0 ++
    leBytes 8 s.utime ++ leBytes 16 0

/-- TELEM. -/
def execTelem (s : State) : Host.Outcome State Fault Refusal :=
  s.when s.life.aon fun s => s.setMgmt { s.mgmt with reply := s.telem, status := ST.OK }

/-- The owner key is set or removed, which closes every session; without owner presence the command is refused (R432). -/
def State.keyChange (s : State) (pres : Bool) (key : Option (List Byte)) : State :=
  if pres then (s.closeSessions).setMgmt { s.mgmt with key := key, status := ST.OK }
  else s.setMgmt { s.mgmt with status := ST.PRESENCE, alerts := s.mgmt.alerts ||| 8 }

/-- KEY_SET: `pres` says that OWNER_PRES_N is low at the start and at the stop condition. -/
def execKeySet (key : BitVec 256) (pres pec : Bool) (s : State) : Host.Outcome State Fault Refusal :=
  s.when s.mgmtFull fun s => s.mgmtWrite pec fun s => s.keyChange pres (some (leBytes 32 key.toNat))

/-- KEY_CLEAR. -/
def execKeyClear (pres pec : Bool) (s : State) : Host.Outcome State Fault Refusal :=
  s.when s.mgmtFull fun s => s.mgmtWrite pec fun s => s.keyChange pres none

/-- BBR_INFO. -/
def execBbrInfo (s : State) : Host.Outcome State Fault Refusal :=
  s.when s.life.aon fun s =>
    s.setMgmt { s.mgmt with reply := leBytes 8 s.bbrOldest ++ leBytes 8 s.bbrNewest ++ leBytes 8 (s.rget .BBR_PENDING), status := ST.OK }

/-- BBR_SEL. -/
def execBbrSel (seq : BitVec 64) (pec : Bool) (s : State) : Host.Outcome State Fault Refusal :=
  s.when s.life.aon fun s => s.mgmtWrite pec fun s => s.setMgmt { s.mgmt with bbrSel := seq.toNat, status := ST.OK }

/-- BBR_ENTRY; an entry whose first copy is being written waits for it. -/
def execBbrEntry (s : State) : Host.Outcome State Fault Refusal :=
  s.when (s.life.aon && !s.bbrBusy s.mgmt.bbrSel 1) fun s =>
    let e := s.bbrRead s.mgmt.bbrSel
    s.setMgmt { s.mgmt with reply := e.1, bbrSel := (s.mgmt.bbrSel + 1) % 2 ^ 64, status := if e.2 then ST.OK else ST.ABSENT }

/-- REG_SEL. -/
def execRegSel (addr : BitVec 64) (pec : Bool) (s : State) : Host.Outcome State Fault Refusal :=
  s.when s.mgmtFull fun s => s.mgmtWrite pec fun s => s.setMgmt { s.mgmt with regSel := addr.toNat, status := ST.OK }

/-- REG_VAL. -/
def execRegVal (s : State) : Host.Outcome State Fault Refusal :=
  s.when s.mgmtFull fun s =>
    let (v, st, s) := s.regRead s.mgmt.regSel
    s.setMgmt { s.mgmt with reply := leBytes 8 v ++ leBytes 2 st, status := st }

/-- ETH_ADDR: addresses as numbers, their first byte the most significant; a zero address leaves the port's own. The status of a port
above 7 is not given. -/
def State.ethAddr (s : State) (p ip4 ip6 : Nat) : State :=
  if 8 ≤ p then
    let (x, s) := s.fresh
    s.setMgmt { s.mgmt with status := x % 2 ^ 16 }
  else
    let s := if ip4 = 0 then s else s.rset .ETH_IP4 p 0 ip4
    let s := if ip6 = 0 then s else (s.rset .ETH_IP6L p 0 (ip6 % 2 ^ 64)).rset .ETH_IP6H p 0 (ip6 / 2 ^ 64)
    s.setMgmt { s.mgmt with status := ST.OK }

def execEthAddr (p : BitVec 8) (ip4 : BitVec 32) (ip6 : BitVec 128) (pec : Bool) (s : State) : Host.Outcome State Fault Refusal :=
  s.when s.mgmtFull fun s => s.mgmtWrite pec fun s => s.ethAddr p.toNat ip4.toNat ip6.toNat

/-- SMBUS_TIMEOUT: the bus is released and the transaction abandoned, so it has no effect. -/
def execSmbusTimeout (s : State) : Host.Outcome State Fault Refusal := s.when s.life.aon id

/-- The port's 7-bit address (R573). -/
def State.mgmtAddr (s : State) : Nat := 0x58 + s.life.straps

/-- ALERT_RESPONSE. -/
def execAlertResponse (s : State) : Host.Outcome State Fault Refusal :=
  s.when s.life.aon fun s => s.setMgmt { s.mgmt with reply := leBytes 1 s.mgmtAddr }

end Sys2Proof.Machine
end

