-- ==== Sys2Proof/Machine/Jtag.lean ====
section
/-!
DEFINITION. The test access port (R574 to R576). Cell `i` of the boundary register, counted from TDI, is bit `i`.
-/
namespace Sys2Proof.Machine

def JT_EXTEST := 0x00
def JT_IDCODE := 0x01
def JT_SAMPLE := 0x02
def JT_HIGHZ := 0x03
def JT_CLAMP := 0x04
def JT_BYPASS := 0xFF

/-- The pins that cells drive: `none` each pin has its function, `some none` all float, `some (some c)` the cells `c` drive them.
EXTEST, HIGHZ and CLAMP take effect only while RESET_N is low. -/
def State.pinDrive (s : State) : Option (Option Nat) :=
  if s.life.resetN then none
  else if s.life.jtagIr = JT_EXTEST ∨ s.life.jtagIr = JT_CLAMP then some (some s.life.jtagCells)
  else if s.life.jtagIr = JT_HIGHZ then some none
  else none

/-- A capture of the boundary register (R575): the levels of the eight inputs and of the four open-drain pins, and what the device pulls
low; what it does with SCL and SDA at that moment is open. -/
def State.capture (s : State) (pins : Nat) : Nat × State :=
  let (x, s) := s.fresh
  let out (i : Nat) : Nat := match i with
    | 0 => if s.life.trip then 1 else 0
    | 1 => if s.alertLow then 1 else 0
    | _ => x / 2 ^ i % 2
  (pins % 256 + ((List.range 4).map fun i => (pins / 2 ^ (8 + i) % 2 + 2 * out i) * 2 ^ (8 + 2 * i)).sum, s)

/-- An instruction and the scan through its register: `cells` are loaded where it is the boundary register, `out` is shifted out. -/
def State.scan (s : State) (ir : Nat) (cells : Option Nat) (out : Nat) : State :=
  { s with life := { s.life with jtagIr := ir, jtagCells := cells.getD s.life.jtagCells, jtagOut := out } }

/-- The one-bit bypass register delays what is shifted in by one. -/
def bypassOut (shift : Nat) : Nat := 2 * shift % 2 ^ 16

/-- The boundary register is scanned. -/
def State.scanCells (s : State) (ir pins shift : Nat) : State :=
  let (c, s) := s.capture pins
  s.scan ir (some shift) c

/-- EXTEST: the levels of the twelve pins, and the bits shifted in. -/
def execExtest (pins : BitVec 12) (shift : BitVec 16) (s : State) : Host.Outcome State Fault Refusal :=
  s.when s.life.aon fun s => if s.life.resetN then s.scan JT_EXTEST none (bypassOut shift.toNat) else s.scanCells JT_EXTEST pins.toNat shift.toNat

/-- IDCODE. -/
def execIdcode (s : State) : Host.Outcome State Fault Refusal := s.when s.life.aon fun s => s.scan JT_IDCODE none 0x1A102A5F

/-- SAMPLE/PRELOAD. -/
def execSamplePreload (pins : BitVec 12) (shift : BitVec 16) (s : State) : Host.Outcome State Fault Refusal :=
  s.when s.life.aon fun s => s.scanCells JT_SAMPLE pins.toNat shift.toNat

/-- HIGHZ. -/
def execHighz (shift : BitVec 16) (s : State) : Host.Outcome State Fault Refusal :=
  s.when s.life.aon fun s => s.scan JT_HIGHZ none (bypassOut shift.toNat)

/-- CLAMP: the cells as they were loaded before. -/
def execClamp (shift : BitVec 16) (s : State) : Host.Outcome State Fault Refusal :=
  s.when s.life.aon fun s => s.scan JT_CLAMP none (bypassOut shift.toNat)

/-- BYPASS, and every code without an instruction of its own. -/
def execBypass (shift : BitVec 16) (s : State) : Host.Outcome State Fault Refusal :=
  s.when s.life.aon fun s => s.scan JT_BYPASS none (bypassOut shift.toNat)

/-- JTAG_RESET: TRST_N low, or Test-Logic-Reset: every pin has its function, and IDCODE is the instruction (IEEE 1149.1). -/
def execJtagReset (s : State) : Host.Outcome State Fault Refusal :=
  s.when s.life.aon fun s => { s with life := { s.life with jtagIr := JT_IDCODE } }

end Sys2Proof.Machine
end

