-- ==== Sys2Proof/Machine/Molt.lean ====
section
/-!
DEFINITION. Known-answer runs (R506 to R509), Molt with its commit (R510 to R519, R524) and half reset (R520, R523).
-/
namespace Sys2Proof.Machine

/-! ### Repairs that turn up -/

/-- A soft repair becomes known. -/
def State.addFound (s : State) (h r : Nat) : State :=
  if s.life.found.contains (h, r) then s else { s with life := { s.life with found := s.life.found ++ [(h, r)] } }

/-- The BAD slots of a half are reported (R517). -/
def State.reportBad (s : State) (h : Nat) : State :=
  (List.range 512).foldl (fun s i => if (s.slot h i).cls i = FZ.BAD then s.raise .fuseBad 0 h 0 i h else s) s

/-- A training finds a connection or pin of a channel failed; beyond two failed symbols the channel is mapped out (R227, R340). -/
def State.trainLine (s : State) (c : Chan) (j : Nat) : State :=
  if s.chState c = CH.MAPPED_OUT then s
  else
    let (s, ovr) := s.retrainLines c [j]
    if ovr then s.mapOut c 5 else s

/-- A failed connection of a physical vault channel of a half, numbered 32 × cluster + 4 × core + channel. -/
def State.foundConn (s : State) (h ch j : Nat) : State :=
  let s := s.addFound h (recConn (ch / 32) (ch / 4 % 8) (ch % 4) j)
  match s.logOf (66 * h + ch / 32) with
  | some k => s.trainLine (.vault (8 * k + ch / 4 % 8) (ch % 4)) j
  | none => s

/-- A failed pin of a side channel. -/
def State.foundPin (s : State) (ch j : Nat) : State :=
  (s.addFound (halfOfStack (ch / 32)) (recPin (ch / 32) (ch % 32) j)).trainLine (.side (ch / 32) (ch % 32)) j

/-! ### Known-answer runs -/

/-- R507: a failed run is reported; BST_KARLOG keeps the first since cold reset. -/
def State.karReport (s : State) (h : Nat) (x : KarFail) : State :=
  let s := s.raise .karFail x.unit x.sub x.engine x.siglo.toNat h
  if s.life.karSeen.contains h then s
  else
    let s := (s.w1cMark .BST_KARLOG h 0 1).rset .BST_KARLOG h 0 (x.siglo.toNat * 2 ^ 32 + x.unit % 256 * 2 ^ 24 + x.sub % 256 * 2 ^ 8 + x.engine % 16 * 2 ^ 4 + 1)
    { s with life := { s.life with karSeen := s.life.karSeen ++ [h] } }

/-- The runs of a half begin: the marks of the clusters that are tested go. -/
def State.karBegin (s : State) (h : Nat) : State :=
  (List.range 66).foldl (fun s p =>
    if s.karBad h p ∧ s.fget F.PWR_CLSTAT_STATE (66 * h + p) ≠ CL.DARK then
      s.fset F.BST_KARFAIL_FAILED h (p / 64) (s.fget F.BST_KARFAIL_FAILED h (p / 64) - 2 ^ (p % 64))
    else s) s

/-- The failed array rows of a physical core that are repaired. -/
def State.coreRows (s : State) (h p core : Nat) : List Nat :=
  match s.logOf (66 * h + p) with
  | some k => rowmapFailed (s.rget .ARR_ROWMAP (8 * k + core))
  | none => ((s.validRecs h ++ (s.life.found.filter fun q => q.1 = h).map (·.2)).filter fun r =>
      recType r = RT.ARR_ROW && recUnit r = p && recCore r = core).map recIndex

/-- R508: the effect of a failed run of a cluster's engine. -/
def State.karCluster (s : State) (h : Nat) (x : KarFail) : State :=
  let s := s.karReport h x
  let p := x.unit
  let rows := (s.coreRows h p x.sub ++ x.rows.map Fin.val).eraseDups
  if x.engine = 1 ∧ x.rows ≠ [] ∧ rows.length ≤ 2 ∧ x.repaired then
    let s := x.rows.foldl (fun s r => s.addFound h (recArrRow p x.sub r)) s
    match s.logOf (66 * h + p) with
    | some k => s.rowmapApply (8 * k + x.sub) ((rows.zipIdx.map fun r => (r.1 + 128) * 2 ^ (8 * r.2)).sum)
    | none => s
  else
    let s := if s.karBad h p then s
      else s.fset F.BST_KARFAIL_FAILED h (p / 64) (s.fget F.BST_KARFAIL_FAILED h (p / 64) + 2 ^ (p % 64))
    match s.logOf (66 * h + p) with
    | some k => (if 6 ≤ x.engine then List.range 8 else [x.sub]).foldl (fun s i => s.failCore (8 * k + i) FC.KAR) s
    | none => s

/-- The known-answer runs of a half's clusters. -/
def State.karHalf (s : State) (h : Nat) (fails : List KarFail) : State :=
  (fails.filter fun x => x.half.val = h && decide (x.unit < 66) && decide (x.sub < 8) && decide (1 ≤ x.engine) && decide (x.engine ≤ 7) &&
    s.fget F.PWR_CLSTAT_STATE (66 * h + x.unit) ≠ CL.DARK).foldl (fun s x => s.karCluster h x) (s.karBegin h)

/-- The runs of the side stacks (bring-up phase 4). -/
def State.karSide (s : State) (fails : List KarFail) : State :=
  (fails.filter fun x => decide (0x80 ≤ x.unit) && decide (x.unit < 0x88) && decide (x.sub < 32) && (x.engine = 8 || x.engine = 9)).foldl
    (fun s x =>
      let k := x.unit - 0x80
      let s := s.karReport (halfOfStack k) x
      if x.engine = 8 then (if s.chState (.side k x.sub) = CH.MAPPED_OUT then s else s.mapOut (.side k x.sub) 1)
      else if !isScarab k then s
      else
        let s := if (s.fget F.SCB_FAIL_KAR k).testBit x.sub then s else s.fset F.SCB_FAIL_KAR k 0 (s.fget F.SCB_FAIL_KAR k + 2 ^ x.sub)
        if (s.fget F.SCB_FAIL_FAILED k).testBit x.sub then s
        else (s.fset F.SCB_FAIL_FAILED k 0 (s.fget F.SCB_FAIL_FAILED k + 2 ^ x.sub)).raise .scbFail k x.sub 0 0 (halfOfStack k)) s

/-! ### Acceptance -/

/-- A reset command is heard even while the shutdown latch holds (R521). -/
def State.hearsReset (s : State) (q : Nat) : Bool :=
  s.fget F.BST_BRINGUP_PHASE = 0xA && s.awake && s.powered && s.fget F.ECP_QPSTAT_STATE q = 2 && !s.writesWait q

/-- R510, R521, R522: what refuses a MOLT_HALF or HALF_RESET. -/
def State.repairRefusal (s : State) (half : Nat) : Option Nat :=
  if s.flag F.PWR_SHUT_LATCH then some ST.STATE
  else if 1 < half then some ST.DESC
  else if s.life.unlocked then some ST.CLOCK
  else if s.locked then some ST.STATE
  else none

/-- The physical clusters of a half that carry a failed core. -/
def State.failedClusters (s : State) (h : Nat) : List Nat :=
  (List.range 66).filter fun p => match s.logOf (66 * h + p) with
    | some k => (List.range 8).any fun i => s.failed (8 * k + i)
    | none => false

/-- The Weevils of a half as a reset leaves them. -/
def State.wvResetHalf (s : State) (h : Nat) : State :=
  let s := (List.range 64).foldl (fun s j =>
    let k := 64 * h + j
    ((s.rwipe .WVL_IDX k).rwipe .WVL_CHCTL k).rwipe .WVL_PUSTAT k) s
  { s with wvl := s.wvl.filter fun p => p.1 / 64 ≠ h }

/-- R520: the reset of a half: its mailboxes, leases, Weevil queues and cores; every module retrains (R398), and H1's ends the pair. -/
def State.halfReset (s : State) (h : Nat) : State :=
  let s := s.mbxClear
  let s := (stacksOf h).foldl (fun s k => (List.range 32).foldl (fun s c =>
    if (s.sc k c).lease.isSome then s.endLease k c (s.sc k c).next else s) s) s
  let s := s.wvResetHalf h
  let s := { s with cores := s.cores.filter (fun p => halfOfCore p.1 ≠ h), sae := s.sae.filter (fun p => halfOfCore p.1 ≠ h) }
  let s := (List.range 16).foldl (fun s m => s.fullRetrain m) s
  if h = 1 then (s.notice 3).pairOff else s

/-- The records among a list that no valid one equals, in the order of a commit (R519). -/
def State.recordsOf (s : State) (h : Nat) (xs : List Nat) : List Nat :=
  sortRecs (xs.filter fun r => !(s.validRecs h).contains r)

/-- Steps 1 and 2 of a Molt, or the reset of a half. -/
def State.moltBegin (s : State) (m : Molt) : State :=
  let h := m.half
  let failedAt := s.failedClusters h
  let s := s.keepFound h (s.softRepairs h)
  let retire := (List.range 66).filterMap fun p => match s.unusable h failedAt p with
    | some 0 => none
    | some c => some (recRetire p c)
    | none => none
  let open_ := s.openRepairs h ++ retire
  let s := if m.again ∨ m.resetOnly then s else (s.repairEntries h open_).foldl State.bbrPut s
  let s := if m.again then (s.raise .moltIncomplete 0 h 0 0 h).fset F.MLT_STAT_INCOMPL h 0 1 else s
  let s := (if s.str.st = .idle then s else s.enter .idle).halfReset h
  let s := if m.resetOnly then s
    else (s.fset F.MLT_STAT_BUSY h 0 1).fset F.MLT_STAT_COMMIT h 0 (if m.commit then 1 else 0)
  let records := if m.commit then s.recordsOf h open_ else []
  { s with life := { s.life with molt := some { m with failedAt := failedAt, start := s.cc, records := records } } }

/-- MOLT_HALF: HALF and COMMIT of its body. -/
def execMoltHalf (h : EcpHdr) (half : BitVec 8) (commit : Bool) (s : State) : Host.Outcome State Fault Refusal :=
  s.when (s.hearsReset h.qp) fun s => s.ecp h OP.MOLT_HALF GRP_REPAIR false false [half.toNat] [] fun s =>
    match s.repairRefusal half.toNat with
    | some st => (s, some (st, []))
    | none => (s.moltBegin { half := half.toNat, commit := commit }, none)

/-- HALF_RESET: HALF of its body. -/
def execHalfReset (h : EcpHdr) (half : BitVec 8) (s : State) : Host.Outcome State Fault Refusal :=
  s.when (s.hearsReset h.qp) fun s => s.ecp h OP.HALF_RESET GRP_REPAIR false false [half.toNat] [] fun s =>
    match s.repairRefusal half.toNat with
    | some st => (s, some (st, []))
    | none => (s.moltBegin { half := half.toNat, resetOnly := true }, none)

/-! ### The steps up to the map -/

/-- Steps 3 and 4: fuses and training. -/
def State.moltTrain (s : State) (h : Nat) (x : MoltIn) : State :=
  let s := s.reportBad h
  let s := x.conns.foldl (fun s q => s.foundConn h q.1 q.2) s
  (x.pins.filter fun q => halfOfStack (q.1.val / 32) = h).foldl (fun s q => s.foundPin q.1 q.2) s

/-- Step 6: the map. The moved logical clusters, and the physical ones that are shed. `old` is the map that the new one starts from
(R512), `cur` the one in force, from which clusters move. -/
def State.moltMapStep (s : State) (h : Nat) (failedAt : List Nat) (old cur : List (Option Nat)) (fresh : Bool) : State × List Nat × List Nat :=
  let s := s.keepFound h (s.softRepairs h)
  let map := s.newMap h failedAt old
  let shed := (List.range 66).filter fun p => (s.unusable h failedAt p).isSome
  let s := s.retire h failedAt
  let (s, moved) := s.applyMap h cur map fresh
  (s, moved, shed)

/-! ### Commit (R518, R519) -/

/-- Step 8: CLUSTER_RETIRE records of the clusters shed, then the soft repairs, in order. -/
def State.moltCommit (s : State) (h : Nat) (failedAt shed bad : List Nat) : State × Nat × Nat :=
  let retire := shed.filterMap fun p => match s.unusable h failedAt p with
    | some 0 => none
    | some c => some (recRetire p c)
    | none => none
  let rs := s.recordsOf h (retire ++ s.openRepairs h)
  let (s, w, full) := rs.foldl (commitOne h bad) (s, 0, 0)
  (if full = 0 then s else s.raise .fuseFull 0 h 0 full h, w, full)

/-! ### The end -/

/-- A bitmap of numbers. -/
def bitmapNat (l : List Nat) : Nat := (l.map fun j => 2 ^ j).sum

/-- R514: the completion body. -/
def State.moltBody (s : State) (h : Nat) (moved shed : List Nat) (written : Nat) : List Byte :=
  let unmapped := (s.mapOf h).zipIdx.filterMap fun q => if q.1.isNone then some q.2 else none
  leBytes 8 (s.mapDigest h) ++ leBytes 8 (bitmapNat moved) ++ leBytes 8 (bitmapNat unmapped) ++ leBytes 16 (bitmapNat shed) ++
    leBytes 2 written ++ leBytes 2 (512 - s.slotsUsed h) ++ leBytes 4 0

/-- The link and the half's controller are back. -/
def State.linkReady (s : State) : Bool := (List.range 16).all fun m => s.itlState m = LK.ACTIVE || s.itlState m = LK.FENCED

/-- Steps 3 to 9 of a Molt, with what they found. -/
def State.moltDone (s : State) (m : Molt) (x : MoltIn) : State :=
  let h := m.half
  let s := (s.moltTrain h x).karHalf h x.kar
  -- a regulator failure before step 6 is judged in this Molt; marks that the runs made are not failures in service
  let (s, moved, shed) := s.moltMapStep h m.failedAt (s.mapOf h) (s.mapOf h) false
  let (s, written, full) := if m.commit then s.moltCommit h m.failedAt shed (x.badSlots.map Fin.val) else (s, 0, 0)
  let st := if full = 0 then ST.OK else ST.FUSEFULL
  let s := (s.bump F.MLT_COUNT_MOLTS h 0 1).bump F.MLT_COUNT_MOVED h 0 moved.length
  let s := (s.fset F.MLT_STAT_BUSY h 0 0).fset F.MLT_STAT_COMMIT h 0 0
  let s := if m.again then s else s.fset F.MLT_STAT_LASTST h 0 st
  let flags := bitsOf [m.commit, m.again]
  let s := s.bbrPut (s.bbrEntry 6 (Config.entrySev 6 % 256) (2 * h) (leBytes 1 h ++ leBytes 1 flags ++ leBytes 8 (bitmapNat moved) ++
    leBytes 2 written ++ leBytes 2 st ++ leBytes 4 ((s.cc - m.start) / 960000)))
  let s := { s with life := { s.life with molt := none, interrupted := s.life.interrupted.filter (· ≠ h) } }
  if m.again then s else s.complete OP.MOLT_HALF st (s.moltBody h moved shed written)

/-- MOLT_DONE. -/
def execMoltDone (x : MoltIn) (s : State) : Host.Outcome State Fault Refusal :=
  let m? := s.life.molt.filter fun m => !m.resetOnly
  s.when (s.awake && s.powered && !s.life.warm && m?.isSome && s.linkReady) fun s => match m? with
    | some m => s.moltDone m x
    | none => s

/-- R523: the end of a half reset: its step 3 loads ARR_ROWMAP of the mapped clusters again, as a Molt's does. -/
def State.halfResetEnd (s : State) (h : Nat) (x : MoltIn) : State :=
  let s := s.moltTrain h x
  let s := (s.mapOf h).zipIdx.foldl (fun s q => match q.1 with
    | some p => s.reloadRows (64 * h + q.2) p
    | none => s) s
  { s with life := { s.life with molt := none } }

/-- HALF_RESET_DONE. -/
def execHalfResetDone (x : MoltIn) (s : State) : Host.Outcome State Fault Refusal :=
  let m? := s.life.molt.filter fun m => m.resetOnly
  s.when (s.awake && s.powered && !s.life.warm && m?.isSome && s.linkReady) fun s => match m? with
    | some m => (s.halfResetEnd m.half x).complete OP.HALF_RESET ST.OK
    | none => s

end Sys2Proof.Machine
end

