-- ==== Sys2Proof/Machine/Resets.lean ====
section
/-!
DEFINITION. Cold and warm reset, PLL unlock and VDD_AON (R46, R497, R520 to R522, R568, R569, R573).
-/
namespace Sys2Proof.Machine

/-! ### Cold reset -/

/-- What a cold reset leaves (R520): the protected store, the fuses, the black box with its queue in always-on memory, the management
port, and the service time; every other register is at its reset value, and the cycle count starts anew. -/
def State.coldState (s : State) : State :=
  let l := s.life
  let life : Life :=
    { grants := l.grants, revoked := l.revoked, slots := l.slots, interrupted := l.interrupted, straps := l.straps, aon := l.aon,
      svcSince := l.svcSince, resetN := false, pwrgood := l.pwrgood, jtagIr := l.jtagIr, jtagCells := l.jtagCells, jtagOut := l.jtagOut }
  let t : State := { ({} : State) with free := s.free, bbr := s.bbr, mgmt := s.mgmt, life := life }
  ((t.rset .BBR_PENDING 0 0 (s.rget .BBR_PENDING)).rset .LIC_SVCTIME 0 0 (s.rget .LIC_SVCTIME)).rset .BBR_DEVSTAT 0 0 (s.rget .BBR_DEVSTAT)

/-- RESET_N falls. The NOTICE of R453 leaves nothing in the state behind it. -/
def State.coldReset (s : State) : State := (s.notice 3).breakMolt.coldState

/-- COLD_RESET; the shutdown latch ignores it (R497). -/
def execColdReset (s : State) : Host.Outcome State Fault Refusal :=
  s.when (s.life.aon && s.life.resetN && !s.flag F.PWR_SHUT_LATCH) State.coldReset

/-- AON_REMOVED: VDD_AON stays below 0.3 V for 100 ms: the latch ends, and only the protected store, the fuses and what the black box has
written stay. -/
def State.aonRemoved (s : State) : State :=
  let t := s.breakMolt.coldState
  { t with bbr := { t.bbr with queue := [], cur := none, rollup := 0, rollupSev := 0 }, mgmt := { ({} : Mgmt) with key := s.mgmt.key },
           life := { t.life with aon := false, pwrgood := false, jtagIr := JT_IDCODE, jtagCells := 0, jtagOut := 0 } }

def execAonRemoved (s : State) : Host.Outcome State Fault Refusal := s.when s.life.aon State.aonRemoved

/-- AON_IN_RANGE: the always-on domain starts and samples the straps (R573); THERMTRIP_N is released. -/
def execAonInRange (straps : BitVec 3) (s : State) : Host.Outcome State Fault Refusal :=
  s.when (!s.life.aon) fun s => { s with life := { s.life with aon := true, straps := straps.toNat, trip := false } }.bbrStart

/-! ### PLL unlock -/

/-- PLL_UNLOCK: a root PLL loses lock after bring-up (R46): the divided clocks of its half stop, and each
system controller raises the event; the management port and the black box go on. -/
def execPllUnlock (half : Fin 2) (s : State) : Host.Outcome State Fault Refusal :=
  s.when (s.awake && s.powered && s.fget F.BST_BRINGUP_PHASE = 0xA && !s.flag F.PWR_SHUT_LATCH) fun s =>
    let s := { s with life := { s.life with unlocked := true, stopped := half.val :: s.life.stopped } }.toFaulted
    (s.raise .pllUnlock 0 half 0 0 0).raise .pllUnlock 0 half 0 0 1

/-! ### Warm reset -/

/-- The registers that a warm reset returns to their reset values: those of the parts that it resets, but for fields that are sticky or
that a rule keeps. -/
def warmRegs : List Reg :=
  [.SYS_EVLOST, .SYS_ERRADDR, .SYS_ERRSTAT, .SYS_ERRCNT, .STR_STEP, .STR_STALLCNT, .STR_STALLNUM, .STR_GATECNT, .STR_STALLSRC,
   .STR_STALLMAX, .STR_DEBUG, .STR_BRKSCNT, .STR_HOSTCOND, .STR_ERRADDR, .STR_ERRSTAT, .STR_ERRCNT] ++
  [.COR_GRESCNT, .COR_RESCFG, .COR_RESCNT, .COR_LOSTPREC, .COR_ACCOVF, .COR_SCRCORR, .COR_PPOIS, .COR_RESLOG0, .COR_RESLOG1,
   .COR_ERRADDR, .COR_ERRSTAT, .COR_ERRCNT, .ARR_RAMP0, .ARR_RAMP1, .ARR_FRZHOLD, .ARR_ACTCNT, .ARR_MVCNT, .ARR_ERRSCNT, .ARR_ERRSTAT,
   .ARR_ERRCNT] ++
  [.VLT_REFCFG, .VLT_RWQCFG, .VLT_FRZCNT, .VLT_ERRADDR, .VLT_ERRSTAT, .VLT_ERRCNT, .KVP_GTRUNC, .KVP_APPCNT, .KVP_COWCNT, .KVP_TRUNCCNT] ++
  [.WVL_DESCCNT, .WVL_DROPCNT, .WVL_CANCCNT, .WVL_HOSTCNT, .WVL_ERRADDR, .WVL_ERRSTAT, .WVL_ERRCNT, .SSK_REFCFG, .SSK_RWQCFG,
   .SSK_ERRADDR, .SSK_ERRSTAT, .SSK_ERRCNT, .SCB_RESCFG, .SCB_LEASECNT, .SCB_REFUSECNT, .SCB_LEASEDCNT, .SCB_SKIPCNT, .SCB_RESCNT,
   .SCB_RESLOG0, .SCB_RESLOG1, .SCB_ERRADDR, .SCB_ERRSTAT, .SCB_ERRCNT] ++
  [.NOC_COLCNT, .NOC_MISSCNT, .NOC_DEADCNT, .NOC_HOSTCNT, .NOC_COLLOG0, .NOC_COLLOG1, .NOC_ERRADDR, .NOC_ERRSTAT, .NOC_ERRCNT,
   .ETH_HOSTTMO, .ETH_ERRADDR, .ETH_ERRSTAT, .ETH_ERRCNT, .CIC_DIVLOG0, .CIC_DIVLOG1, .CIC_DIVLOG2, .CIC_DIVLOG3, .CIC_ERRADDR,
   .CIC_ERRSTAT, .CIC_ERRCNT, .BST_LBCFG, .LIC_ERRSTAT, .FUS_SEL]

/-- Every command in progress but those of an opcode completes with ST_RESET (R522). -/
def State.resetCmds (s : State) (but : Nat) : State :=
  let s := (s.cmds.filter fun c => c.op ≠ but).foldl (fun s c => s.completion c ST.RESET) s
  { s with cmds := s.cmds.filter (fun c => c.op = but), rdreqs := s.rdreqs.filter (fun r => r.op = 0x20) }

/-- Changes that waited for a boundary and no longer take effect (R112). -/
def State.dropPending (s : State) : State :=
  let s := ((List.range 4352).map chanOfNum).foldl (fun s c => s.setChPending c 0) s
  let ch (c : WCh) : WCh := { c with pend := 0, clr := false }
  let wv (w : Wvl) : Wvl := { w with chs := w.chs.map fun q => (q.1, ch q.2) }
  let s : State := { s with wvl := s.wvl.map fun p => (p.1, wv p.2) }
  s.setCic { s.cic with pending := none }

/-- ARR_STAT keeps the spares in use and the cap. -/
def State.warmArr (s : State) : State :=
  (List.range 1024).foldl (fun s n => s.rset .ARR_STAT n 0 (s.rget .ARR_STAT n &&& 0x10000)) s

/-- A logic BIST that a warm reset ends: how many groups it has completed is open. -/
def State.breakLbist (s : State) : State :=
  match s.life.lbist with
  | none => s
  | some b =>
    let (v, s) := s.fresh
    let s := (s.fset F.BST_LBSTAT_BUSY b.half 0 0).fset F.BST_LBSTAT_GROUPS b.half 0 (v % ((b.under.length + 15) / 16 + 1))
    { s.fset F.BST_LBSTAT_LASTST b.half 0 ST.RESET with life := { s.life with lbist := none } }

/-- R520: what a warm reset does at once. An interrupted Molt runs again afterwards (R524), so it is remembered. -/
def State.warmBegin (s : State) : State :=
  let molt := s.life.molt
  let s := s.resetCmds OP.WARM_RESET
  let s := s.dropPending
  let s := if s.flag F.LIC_STAT_PEND then s.licenceApply else s
  let s := s.breakMolt.breakLbist
  let s := match molt with
    | some m => if m.resetOnly ∨ m.again then s else s.fset F.MLT_STAT_LASTST m.half 0 ST.RESET
    | none => s
  let again : Option Molt := molt.bind fun m => if m.resetOnly then none else some { m with again := true, commit := false }
  let s := (s.endLeases.enter .idle).mbxClear
  let s := s.wvReset.pairReset
  let s := (List.range 1024).foldl (fun s n => s.zeroScratch n) { s with cores := [], flights := [], sports := [], sae := [], saeLapse := false }
  let s := s.freshStks
  let s := s.clearCache
  let s := (warmRegs.foldl State.rclear s).warmArr
  let s := (s.fset F.STR_GATE_GATE_HOST 0 0 0).gateChange
  { s with str := { ({} : Stream) with present := s.str.present }, sch := [],
           life := { s.life with warm := true, molt := again } }

/-- WARM_RESET: after a root PLL unlock it completes with ST_CLOCK; while the shutdown latch holds with ST_STATE (R521, R522). -/
def execWarmReset (h : EcpHdr) (s : State) : Host.Outcome State Fault Refusal :=
  s.when (s.hearsReset h.qp) fun s => s.ecp h OP.WARM_RESET GRP_REPAIR false true [] [] fun s =>
    if s.flag F.PWR_SHUT_LATCH then (s, some (ST.STATE, []))
    else if s.life.unlocked then (s, some (ST.CLOCK, []))
    else (s.warmBegin, none)

/-- WARM_RESET_PIN: WARM_RESET_N low; ignored before READY, while RESET_N is low, under the latch, and after a PLL unlock, which only a
cold reset mends. -/
def execWarmResetPin (s : State) : Host.Outcome State Fault Refusal :=
  s.when (s.ready && s.life.warmN && !s.life.unlocked) fun s =>
    let s := { s with life := { s.life with warmN := false } }
    if s.life.warm then s else s.warmBegin

/-- WARM_RESET_DONE: the pin, if it was low, has risen; the device is ready for commands, and a Molt that the reset interrupted runs
again. -/
def State.warmDone (s : State) : State :=
  let s := { s with life := { s.life with warm := false, warmN := true } }.complete OP.WARM_RESET ST.OK
  match s.life.molt with
  | some m => s.moltBegin { m with start := s.cc }
  | none => s

def execWarmResetDone (s : State) : Host.Outcome State Fault Refusal :=
  s.when (s.life.warm && s.awake && s.powered) State.warmDone

end Sys2Proof.Machine
end

