-- ==== Sys2Proof/Machine/Lbist.lean ====
section
/-!
DEFINITION. Logic BIST (R530 to R533).
-/
namespace Sys2Proof.Machine

/-- The clusters that a mask names. -/
def maskBits (m n : Nat) : List Nat := (List.range n).filter fun p => m.testBit p

/-- R530: what refuses an LBIST_RUN. -/
def State.lbistRefusal (s : State) (half mask : Nat) : Option Nat :=
  let div := s.fget F.BST_LBCFG_CDIV half
  let named := (maskBits mask 66).map fun p => 66 * half + p
  let code (p : Nat) : Nat := s.fget F.PWR_VSET_CODE p
  let st (p : Nat) : Nat := s.fget F.PWR_CLSTAT_STATE p
  if 1 < half then some ST.DESC
  else if s.locked then some ST.STATE
  else if s.life.unlocked then some ST.CLOCK
  else if div < 4 ∨ 8 < div then some ST.CLOCK
  else if named.any fun p => decide (code p < 112) || decide (136 < code p) then some ST.VOLTAGE
  else if named.any fun p => st p = CL.ENTERING || st p = CL.CHRYSALIS || st p = CL.LEAVING then some ST.STATE
  else if mask = 0 ∨ 2 ^ 66 ≤ mask then some ST.DESC
  else none

/-- A cluster under test, or reset after it, keeps nothing of its cores and its Weevil. -/
def State.loseCluster (s : State) (k : Nat) : State :=
  let s := (List.range 8).foldl (fun s i => (s.setCore (8 * k + i) {}).zeroScratch (8 * k + i)) s
  { s with wvl := s.wvl.filter fun p => p.1 ≠ k }

/-- R531, steps 1 to 4. -/
def State.lbistBegin (s : State) (half mask q tag : Nat) : State :=
  let named := maskBits mask 66
  let dark (p : Nat) : Bool := s.fget F.PWR_CLSTAT_STATE (66 * half + p) = CL.DARK
  let under := named.filter fun p => !dark p
  let s := (if s.str.st = .idle then s else s.enter .idle).closeSessions
  let s := under.foldl (fun s p => match s.logOf (66 * half + p) with
    | some k => s.loseCluster k
    | none => s) s
  let s := (s.fset F.BST_LBSTAT_BUSY half 0 1).fset F.BST_LBSTAT_GROUPS half 0 0
  { s with life := { s.life with lbist := some { half := half, under := under, notRun := named.filter dark, qp := q, tag := tag } } }

/-- LBIST_RUN: HALF and PMASK of its body. -/
def execLbistRun (h : EcpHdr) (half : BitVec 8) (pmask : BitVec 128) (s : State) : Host.Outcome State Fault Refusal :=
  s.when (s.hears h.qp) fun s => s.ecp h OP.LBIST_RUN GRP_REPAIR false false [half.toNat] [] fun s =>
    match s.lbistRefusal half.toNat pmask.toNat with
    | some st => (s, some (st, []))
    | none => (s.lbistBegin half.toNat pmask.toNat h.qp h.tag.toNat, none)

/-- R531, steps 6 and 7, and R533: the marks of the clusters tested and the completion, with SESSION 0. -/
def State.lbistDone (s : State) (r : Lbist) (fails : List Nat) : State :=
  let bad := r.under.filter fails.contains
  let good := r.under.filter fun p => !fails.contains p
  let mark (s : State) (p : Nat) : State :=
    let v := s.fget F.BST_LBFAIL_FAILED r.half (p / 64)
    let v' := if bad.contains p then v ||| 2 ^ (p % 64) else v - (v &&& 2 ^ (p % 64))
    s.fset F.BST_LBFAIL_FAILED r.half (p / 64) v'
  let s := r.under.foldl mark s
  let s := (s.fset F.BST_LBSTAT_BUSY r.half 0 0).fset F.BST_LBSTAT_GROUPS r.half 0 ((r.under.length + 15) / 16)
  let s := s.fset F.BST_LBSTAT_LASTST r.half 0 ST.OK
  let cmds := s.cmds.map fun (c : Cmd) => if c.op = OP.LBIST_RUN then { c with session := 0 } else c
  let s := { s with cmds := cmds, life := { s.life with lbist := none } }
  s.complete OP.LBIST_RUN ST.OK (leBytes 16 (bitmapNat good) ++ leBytes 16 (bitmapNat bad) ++ leBytes 16 (bitmapNat r.notRun))

/-- LBIST_DONE: the clusters whose signatures differ. -/
def execLbistDone (fails : List (Fin 66)) (s : State) : Host.Outcome State Fault Refusal :=
  s.when (s.awake && s.powered && s.life.lbist.isSome) fun s => match s.life.lbist with
    | some r => s.lbistDone r (fails.map Fin.val)
    | none => s

end Sys2Proof.Machine
end

