-- ==== Sys2Proof/Machine/BringUp.lean ====
section
/-!
DEFINITION. Bring-up (R502 to R505, R565): its nine phases, their failures and READY.
-/
namespace Sys2Proof.Machine

/-- The longest time of a phase in ms (R502). -/
def phaseMax (p : Nat) : Nat := ([80, 20, 1200, 600, 150, 200, 1300, 500, 150][p - 1]?).getD 0

def State.phase (s : State) : Nat := s.fget F.BST_BRINGUP_PHASE

/-- Whole milliseconds since a real cycle. -/
def State.msSince (s : State) (t : Nat) : Nat := (s.cc - t) / 960000

/-- The BRINGUP entry: result 0 READY, 1 STOPPED. -/
def State.bringEntry (s : State) (result : Nat) : State :=
  let times := (List.range 9).flatMap fun i => leBytes 2 (s.fget (F.BST_PHTIME_MS (i % 4)) 0 (i / 4))
  s.bbrPut (s.bbrEntry 4 (Config.entrySev 4 % 256) 0 (times ++ leBytes 2 s.life.failures ++ leBytes 1 (s.fget F.BST_BRINGUP_FAILPH) ++
    leBytes 1 result))

/-- R504: bring-up stops in a phase. -/
def State.bringStop (s : State) (p : Nat) : State :=
  let s := (s.fset F.BST_BRINGUP_PHASE 0 0 0xF).fset F.BST_BRINGUP_FAILPH 0 0 p
  let s := s.fset F.BST_BRINGUP_TOTAL 0 0 (s.msSince s.life.bringStart)
  { s with mgmt := { s.mgmt with alerts := s.mgmt.alerts ||| 1 } }.bringEntry 1

/-! ### The phases -/

/-- The registers whose fields the fuses give (reset F): SYS_ORDER, the factory features of the ordering number (R1), the revoked keys, the
unique identifier, the ports' MAC addresses and the voltage codes. -/
def State.loadFuses (s : State) : State :=
  let order := Config.fuse (Reg.SYS_ORDER.addr 0 0) % 3
  let s := s.rset .SYS_ORDER 0 0 order
  let factory := if order = 0 then 7 else if order = 1 then 3 else 2
  let s := (s.fset F.LIC_STAT_FACTORY 0 0 factory).fset F.LIC_STAT_INFORCE 0 0 factory
  let s := s.fset F.LIC_STAT_KEYREV 0 0 (Config.fuse (Reg.LIC_STAT.addr 0 0) % 16)
  let s := s.rset .LIC_UID 0 0 (Config.fuse (Reg.LIC_UID.addr 0 0) % 2 ^ 64)
  let s := (List.range 8).foldl (fun s p => s.rset .ETH_MAC p 0 (Config.fuse (Reg.ETH_MAC.addr p 0) % 2 ^ 48)) s
  (List.range 132).foldl (fun s p => s.fset F.PWR_VSET_CODE p 0 (Config.fuse (Reg.PWR_VSET.addr p 0))) s

/-- Phase 1. -/
def State.phaseFuses (s : State) : State := (s.loadFuses.reportBad 0).reportBad 1

/-- Phase 3: the connections and channels that fail training, by physical channel. -/
def State.phaseVault (s : State) (x : PhaseIn) : State :=
  let s := x.conns.foldl (fun s q =>
    let n := q.1.val
    s.addFound (n / 32 / 66) (recConn (n / 32 % 66) (n / 4 % 8) (n % 4) q.2)) s
  { s with life := { s.life with outs := x.vaultOut.map Fin.val } }

/-- Phase 4: pins, command buses and the runs of the side stacks. -/
def State.phaseSide (s : State) (x : PhaseIn) : State :=
  let s := (s.buildPins 0 (s.validRecs 0)).buildPins 1 (s.validRecs 1)
  let s := x.pins.foldl (fun s q =>
    let n := q.1.val
    (s.addFound (halfOfStack (n / 32)) (recPin (n / 32) (n % 32) q.2)).failLine (.side (n / 32) (n % 32)) q.2 1) s
  let s := x.sideOut.foldl (fun s n =>
    let c : Chan := .side (n.val / 32) (n.val % 32)
    if s.chState c = CH.MAPPED_OUT then s else s.mapOut c 1) s
  s.karSide x.kar

/-- Phase 5: stall lanes that do not work; whether a direction has lost both. -/
def State.phaseLink (s : State) (x : PhaseIn) : State × Bool :=
  let s := x.lanesBad.foldl (fun s l =>
    if s.stall.lanes.testBit l then
      { s with stall := { s.stall with lanes := s.stall.lanes - 2 ^ l.val } }.raise .stallLane 0 (l.val / 2) 0 (l.val % 2) (l.val / 2)
    else s) s
  (s, s.stall.lanes % 4 = 0 || s.stall.lanes / 4 = 0)

/-- The map of a half as bring-up builds it, from the identity (R512): `fresh` where the half has none yet. -/
def State.phaseMap (s : State) (h : Nat) (fresh : Bool) : State :=
  let start := (List.range 64).map some
  (s.moltMapStep h [] start (if fresh then start else s.mapOf h) fresh).1

/-- Phase 6: regulators, the repairs of the pending-repair entries (R222), and a provisional map of each half. -/
def State.phaseRepair (s : State) (x : PhaseIn) : State :=
  let s := x.regs.foldl (fun s q => s.regulatorFail q.1 q.2.1 q.2.2) s
  let es := s.ringEntries
  [0, 1].foldl (fun s h =>
    let v := s.validRecs h
    let items := (pendingItems h es).filter fun r => !v.contains r
    let s := (items.foldl (fun s r => s.addFound h r) s).buildPins h items
    let s := s.phaseMap h true
    (s.life.found.filter fun q => q.1 = h && recType q.2 = RT.VAULT_CONN).foldl (fun s q => match s.logOf (66 * h + recUnit q.2) with
      | some k => if items.contains q.2 then s else s.raise .vltLane (8 * k + recCore q.2) (recChan q.2) 0 (recIndex q.2) h
      | none => s) s) s

/-- Phase 7: the known-answer runs; a half whose mapped cluster failed is mapped again. -/
def State.phaseRuns (s : State) (x : PhaseIn) : State :=
  [0, 1].foldl (fun s h =>
    let s := s.karHalf h x.kar
    let s := if (s.mapOf h).any fun m => match m with
        | some p => s.karBad h p
        | none => false
      then s.phaseMap h false else s
    (List.range 66).foldl (fun s p =>
      if (s.logOf (66 * h + p)).isNone && s.fget F.PWR_CLSTAT_STATE (66 * h + p) ≠ CL.DARK
      then s.fset F.PWR_CLSTAT_STATE (66 * h + p) 0 CL.SPARE_OFF else s) s) s

/-- Phase 9: the field licences that verify are in force. -/
def State.phaseLicences (s : State) (x : PhaseIn) : State :=
  let bad (g : Nat × Nat × Nat × Nat) : Bool := x.badLic.any fun k => k.val = g.1
  let s := (s.life.grants.filter fun g => !bad g).foldl (fun s g => s.showGrant g.1 (some g.2)) s
  let s := (s.life.grants.filter bad).foldl (fun s g => (s.raise .licLapse 0 0 0 g.2.1).licEntry 2 4 g.2.1 g.2.2.2) s
  s.licenceApply

/-- R505: READY. -/
def State.bringReady (s : State) : State :=
  let s := (s.fset F.BST_BRINGUP_PHASE 0 0 0xA).fset F.BST_BRINGUP_TOTAL 0 0 (s.msSince s.life.bringStart)
  let s := s.bringEntry 0
  s.life.interrupted.foldl (fun s h => (s.raise .moltIncomplete 0 h 0 0 h).fset F.MLT_STAT_INCOMPL h 0 1) { s with life := { s.life with interrupted := [] } }

/-- The failures that the operands of a phase name. -/
def phaseFailures (x : PhaseIn) : Nat :=
  x.conns.length + x.vaultOut.length + x.pins.length + x.sideOut.length + x.lanesBad.length + x.regs.length + x.kar.length + x.badLic.length

/-- A phase ends with what its work found. -/
def State.phaseEnds (s : State) (x : PhaseIn) : State :=
  let p := s.phase
  let s := s.fset (F.BST_PHTIME_MS ((p - 1) % 4)) 0 ((p - 1) / 4) (min 65535 (s.msSince s.life.phaseStart))
  let (s, stop) : State × Bool := match p with
    | 1 => (if x.stop then s else s.phaseFuses, x.stop)
    | 2 => (if x.stop then s.raise .pllUnlock 0 x.pllHalf 0 0 x.pllHalf else s, x.stop)
    | 3 => (s.phaseVault x, false)
    | 4 => (s.phaseSide x, false)
    | 5 => s.phaseLink x
    | 6 => (s.phaseRepair x, false)
    | 7 => (s.phaseRuns x, false)
    | 9 => (s.phaseLicences x, false)
    | _ => (s, false)
  let down := if p = 8 then ((List.range 8).filter fun q => !s.flag F.ETH_STAT_LINK q).length
    else if p = 5 then ((List.range 16).filter fun m => s.itlState m = LK.FENCED).length else 0
  let s := { s with life := { s.life with failures := min 65535 (s.life.failures + phaseFailures x + down), phaseStart := s.cc } }
  if stop then s.bringStop p
  else if p = 9 then s.bringReady
  else
    let s := s.fset F.BST_BRINGUP_PHASE 0 0 (p + 1)
    if p = 4 then (List.range 16).foldl (fun s m => s.trainModule m) s else s

/-! ### The commands -/

/-- BRINGUP: PWRGOOD and RESET_N are high, the later of them just now; TEST_MODE high stops bring-up in phase 1. -/
def execBringup (testMode : Bool) (s : State) : Host.Outcome State Fault Refusal :=
  s.when (s.life.aon && !s.flag F.PWR_SHUT_LATCH && (s.phase = 0 || !s.life.resetN || s.life.powerFailed)) fun s =>
    let s := if s.life.powerFailed then s.coldState else s
    let s := { s with life := { s.life with pwrgood := true, resetN := true, bringStart := s.cc, phaseStart := s.cc } }
    if testMode then s.bringStop 1 else s.fset F.BST_BRINGUP_PHASE 0 0 1

/-- A phase is in progress. -/
def State.inPhase (s : State) : Bool := decide (1 ≤ s.phase) && decide (s.phase ≤ 9) && s.awake && s.powered && !s.flag F.PWR_SHUT_LATCH

/-- PHASE_DONE: the phase's work is done within its time; link training is done once every module carries traffic or is fenced. -/
def execPhaseDone (x : PhaseIn) (s : State) : Host.Outcome State Fault Refusal :=
  s.when (s.inPhase && (s.phase ≠ 5 || s.linkReady) && decide (s.cc ≤ s.life.phaseStart + 960000 * phaseMax s.phase)) fun s => s.phaseEnds x

/-- PHASE_TIMEOUT: a phase that reaches its maximum ends there (R503); what it has not completed is among the failures it names, and a
module that is still training is fenced. -/
def execPhaseTimeout (x : PhaseIn) (s : State) : Host.Outcome State Fault Refusal :=
  s.when (s.inPhase && decide (s.life.phaseStart + 960000 * phaseMax s.phase ≤ s.cc)) fun s =>
    let s := if s.phase = 5 then (List.range 16).foldl (fun s m => if s.itlState m = LK.ACTIVE || s.itlState m = LK.FENCED then s else s.fence m) s else s
    s.phaseEnds x

end Sys2Proof.Machine
end

