-- ==== Sys2Proof/Machine/Dispatch.lean ====
section
/-!
DEFINITION. What each command does: one arm per constructor.
-/
namespace Sys2Proof.Machine

def exec (i : Instr) (s : State) : Host.Outcome State Fault Refusal :=
  match i with
  | .bundle x => Sys2Proof.Machine.execBundle x s
  | .freezeBegin => Sys2Proof.Machine.execFreezeBegin s
  | .stallRelease src half unit => Sys2Proof.Machine.execStallRelease src half unit s
  | .freezeLift => Sys2Proof.Machine.execFreezeLift s
  | .gatingWindow => Sys2Proof.Machine.execGatingWindow s
  | .stallTimeout => Sys2Proof.Machine.execStallTimeout s
  | .debugStep n => Sys2Proof.Machine.execDebugStep n s
  | .debugRefreeze => Sys2Proof.Machine.execDebugRefreeze s
  | .streamLoad h id => Sys2Proof.Machine.execStreamLoad h id s
  | .streamStart h force => Sys2Proof.Machine.execStreamStart h force s
  | .startCode => Sys2Proof.Machine.execStartCode s
  | .streamHalt h mode => Sys2Proof.Machine.execStreamHalt h mode s
  | .streamResume h => Sys2Proof.Machine.execStreamResume h s
  | .mailboxWrite slot off d => Sys2Proof.Machine.execMailboxWrite slot off d s
  | .mailboxPresent slot => Sys2Proof.Machine.execMailboxPresent slot s
  | .arrRowmapWrite core v => Sys2Proof.Machine.execArrRowmapWrite core v s
  | .refreshInterval half => Sys2Proof.Machine.execRefreshInterval half s
  | .chmapSet h kind action index => Sys2Proof.Machine.execChmapSet h kind action index s
  | .retrainDone bad => Sys2Proof.Machine.execRetrainDone bad s
  | .kvRefill h mask => Sys2Proof.Machine.execKvRefill h mask s
  | .attentionCall core hit => Sys2Proof.Machine.execAttentionCall core hit s
  | .nop cl ch mismatch => Sys2Proof.Machine.execNop cl ch mismatch s
  | .copy cl ch mismatch => Sys2Proof.Machine.execCopy cl ch mismatch s
  | .gather cl ch mismatch => Sys2Proof.Machine.execGather cl ch mismatch s
  | .scatter cl ch mismatch => Sys2Proof.Machine.execScatter cl ch mismatch s
  | .pageAppend cl ch mismatch => Sys2Proof.Machine.execPageAppend cl ch mismatch s
  | .pageCow cl ch mismatch => Sys2Proof.Machine.execPageCow cl ch mismatch s
  | .pageShare cl ch mismatch => Sys2Proof.Machine.execPageShare cl ch mismatch s
  | .pageFree cl ch mismatch => Sys2Proof.Machine.execPageFree cl ch mismatch s
  | .treeWalk cl ch mismatch => Sys2Proof.Machine.execTreeWalk cl ch mismatch s
  | .topkRoute cl ch mismatch => Sys2Proof.Machine.execTopkRoute cl ch mismatch s
  | .hostWindow cl ch mismatch => Sys2Proof.Machine.execHostWindow cl ch mismatch s
  | .pageUnitTake cl => Sys2Proof.Machine.execPageUnitTake cl s
  | .descriptorComplete cl ch => Sys2Proof.Machine.execDescriptorComplete cl ch s
  | .wvlDisable cl ch => Sys2Proof.Machine.execWvlDisable cl ch s
  | .wvlEnable cl ch => Sys2Proof.Machine.execWvlEnable cl ch s
  | .wvlClear cl ch => Sys2Proof.Machine.execWvlClear cl ch s
  | .access stk ch hits => Sys2Proof.Machine.execAccess stk ch hits s
  | .refwin stk ch hits => Sys2Proof.Machine.execRefwin stk ch hits s
  | .svc stk ch hits => Sys2Proof.Machine.execSvc stk ch hits s
  | .redopen stk ch hits => Sys2Proof.Machine.execRedopen stk ch hits s
  | .redclose stk ch hits => Sys2Proof.Machine.execRedclose stk ch hits s
  | .reductionDeadline stk ch => Sys2Proof.Machine.execReductionDeadline stk ch s
  | .lease stk ch hits => Sys2Proof.Machine.execLease stk ch hits s
  | .bcast stk ch hits => Sys2Proof.Machine.execBcast stk ch hits s
  | .leaseWindowEnd stk ch => Sys2Proof.Machine.execLeaseWindowEnd stk ch s
  | .cacheLaneAccess stk lane => Sys2Proof.Machine.execCacheLaneAccess stk lane s
  | .sideReservedSlot stk ch => Sys2Proof.Machine.execSideReservedSlot stk ch s
  | .scbCtlWrite stk en => Sys2Proof.Machine.execScbCtlWrite stk en s
  | .flitLaunch m d => Sys2Proof.Machine.execFlitLaunch m d s
  | .dataFlit m d corrupt => Sys2Proof.Machine.execDataFlit m d corrupt s
  | .idleFlit m d bad => Sys2Proof.Machine.execIdleFlit m d bad s
  | .widthchkFlit m d code => Sys2Proof.Machine.execWidthchkFlit m d code s
  | .lineDue m d => Sys2Proof.Machine.execLineDue m d s
  | .replayStallPoint m d => Sys2Proof.Machine.execReplayStallPoint m d s
  | .lateLaunch m d => Sys2Proof.Machine.execLateLaunch m d s
  | .replayTimeout m d => Sys2Proof.Machine.execReplayTimeout m d s
  | .stallLaneFrame d err0 err1 => Sys2Proof.Machine.execStallLaneFrame d err0 err1 s
  | .linkTrainDone m fail0 fail1 f0 f1 => Sys2Proof.Machine.execLinkTrainDone m fail0 fail1 f0 f1 s
  | .linkTrainTimeout m => Sys2Proof.Machine.execLinkTrainTimeout m s
  | .fastRetrainDone m => Sys2Proof.Machine.execFastRetrainDone m s
  | .itlRetrain m => Sys2Proof.Machine.execItlRetrain m s
  | .itlFence m => Sys2Proof.Machine.execItlFence m s
  | .ethLinkChange p rate => Sys2Proof.Machine.execEthLinkChange p rate s
  | .pfcFrame p enable time => Sys2Proof.Machine.execPfcFrame p enable time s
  | .arp p v6 a => Sys2Proof.Machine.execArp p v6 a s
  | .cmReq p x => Sys2Proof.Machine.execCmReq p x s
  | .cmDreq q => Sys2Proof.Machine.execCmDreq q s
  | .rdmaWrite q va rkey ce d => Sys2Proof.Machine.execRdmaWrite q va rkey ce d s
  | .rdmaRead q va rkey ce len => Sys2Proof.Machine.execRdmaRead q va rkey ce len s
  | .qpError q => Sys2Proof.Machine.execQpError q s
  | .hostLineTimeout => Sys2Proof.Machine.execHostLineTimeout s
  | .sessionOpen h => Sys2Proof.Machine.execSessionOpen h s
  | .sessionProof h tag => Sys2Proof.Machine.execSessionProof h tag s
  | .sessionClose h => Sys2Proof.Machine.execSessionClose h s
  | .eventCfg h minsev => Sys2Proof.Machine.execEventCfg h minsev s
  | .nonceLapse q => Sys2Proof.Machine.execNonceLapse q s
  | .authlockExpire q => Sys2Proof.Machine.execAuthlockExpire q s
  | .regRead h addr n => Sys2Proof.Machine.execRegRead h addr n s
  | .regWrite h addr vs => Sys2Proof.Machine.execRegWrite h addr vs s
  | .registerWrite addr v => Sys2Proof.Machine.execRegisterWrite addr v s
  | .errorRecordClear addr => Sys2Proof.Machine.execErrorRecordClear addr s
  | .counterClear addr v => Sys2Proof.Machine.execCounterClear addr v s
  | .snsClear all inst => Sys2Proof.Machine.execSnsClear all inst s
  | .memRead h addr n => Sys2Proof.Machine.execMemRead h addr n s
  | .moltHalf h half commit => Sys2Proof.Machine.execMoltHalf h half commit s
  | .lbistRun h half pmask => Sys2Proof.Machine.execLbistRun h half pmask s
  | .licenceInstall h d => Sys2Proof.Machine.execLicenceInstall h d s
  | .licenceLapse k => Sys2Proof.Machine.execLicenceLapse k s
  | .svctimeTick => Sys2Proof.Machine.execSvctimeTick s
  | .bbrRead h first count => Sys2Proof.Machine.execBbrRead h first count s
  | .bbrAck h seq => Sys2Proof.Machine.execBbrAck h seq s
  | .bbrProgram result => Sys2Proof.Machine.execBbrProgram result s
  | .bbrErase dev good => Sys2Proof.Machine.execBbrErase dev good s
  | .pairMode h mode role path flags relay uid jbuf jlen => Sys2Proof.Machine.execPairMode h mode role path flags relay uid jbuf jlen s
  | .pairSeekTimeout => Sys2Proof.Machine.execPairSeekTimeout s
  | .heartbeatSend => Sys2Proof.Machine.execHeartbeatSend s
  | .heartbeat h x => Sys2Proof.Machine.execHeartbeat h x s
  | .heartbeatMiss => Sys2Proof.Machine.execHeartbeatMiss s
  | .notice h cause => Sys2Proof.Machine.execNotice h cause s
  | .hash h hash pois => Sys2Proof.Machine.execHash h hash pois s
  | .stepHash => Sys2Proof.Machine.execStepHash s
  | .input h entries => Sys2Proof.Machine.execInput h entries s
  | .inend h count cond => Sys2Proof.Machine.execInend h count cond s
  | .inputRecordWrite => Sys2Proof.Machine.execInputRecordWrite s
  | .jline h rs => Sys2Proof.Machine.execJline h rs s
  | .jreg h core free defer reserve live => Sys2Proof.Machine.execJreg h core free defer reserve live s
  | .jend h frames base => Sys2Proof.Machine.execJend h frames base s
  | .sync h rs => Sys2Proof.Machine.execSync h rs s
  | .railSample x => Sys2Proof.Machine.execRailSample x s
  | .powerFail cause v0 v1 => Sys2Proof.Machine.execPowerFail cause v0 v1 s
  | .regulatorFail pi r vret => Sys2Proof.Machine.execRegulatorFail pi r vret s
  | .droop pi r code => Sys2Proof.Machine.execDroop pi r code s
  | .chrysalisEnter pi => Sys2Proof.Machine.execChrysalisEnter pi s
  | .chrysalisExit pi => Sys2Proof.Machine.execChrysalisExit pi s
  | .chrysalisPhaseEnd pi => Sys2Proof.Machine.execChrysalisPhaseEnd pi s
  | .thermalEval x => Sys2Proof.Machine.execThermalEval x s
  | .trayPost b pm pec => Sys2Proof.Machine.execTrayPost b pm pec s
  | .coolStale => Sys2Proof.Machine.execCoolStale s
  | .powerCapEval pm => Sys2Proof.Machine.execPowerCapEval pm s
  | .aonRemoved => Sys2Proof.Machine.execAonRemoved s
  | .bringup testMode => Sys2Proof.Machine.execBringup testMode s
  | .phaseTimeout x => Sys2Proof.Machine.execPhaseTimeout x s
  | .coldReset => Sys2Proof.Machine.execColdReset s
  | .warmReset h => Sys2Proof.Machine.execWarmReset h s
  | .warmResetPin => Sys2Proof.Machine.execWarmResetPin s
  | .halfReset h half => Sys2Proof.Machine.execHalfReset h half s
  | .pllUnlock half => Sys2Proof.Machine.execPllUnlock half s
  | .status => Sys2Proof.Machine.execStatus s
  | .telem => Sys2Proof.Machine.execTelem s
  | .keySet key pres pec => Sys2Proof.Machine.execKeySet key pres pec s
  | .keyClear pres pec => Sys2Proof.Machine.execKeyClear pres pec s
  | .bbrInfo => Sys2Proof.Machine.execBbrInfo s
  | .bbrSel seq pec => Sys2Proof.Machine.execBbrSel seq pec s
  | .bbrEntry => Sys2Proof.Machine.execBbrEntry s
  | .regSel addr pec => Sys2Proof.Machine.execRegSel addr pec s
  | .regVal => Sys2Proof.Machine.execRegVal s
  | .ethAddr p ip4 ip6 pec => Sys2Proof.Machine.execEthAddr p ip4 ip6 pec s
  | .smbusTimeout => Sys2Proof.Machine.execSmbusTimeout s
  | .extest pins shift => Sys2Proof.Machine.execExtest pins shift s
  | .idcode => Sys2Proof.Machine.execIdcode s
  | .samplePreload pins shift => Sys2Proof.Machine.execSamplePreload pins shift s
  | .highz shift => Sys2Proof.Machine.execHighz shift s
  | .clamp shift => Sys2Proof.Machine.execClamp shift s
  | .bypass shift => Sys2Proof.Machine.execBypass shift s
  | .jtagReset => Sys2Proof.Machine.execJtagReset s
  | .aonInRange straps => Sys2Proof.Machine.execAonInRange straps s
  | .alertResponse => Sys2Proof.Machine.execAlertResponse s
  | .laneLockLost m d l => Sys2Proof.Machine.execLaneLockLost m d l s
  | .framingLost m => Sys2Proof.Machine.execFramingLost m s
  | .badFrame => Sys2Proof.Machine.execBadFrame s
  | .malformedMessage h op => Sys2Proof.Machine.execMalformedMessage h op s
  | .invalidRequest q => Sys2Proof.Machine.execInvalidRequest q s
  | .discardedFrame p pause => Sys2Proof.Machine.execDiscardedFrame p pause s
  | .cmRtu q => Sys2Proof.Machine.execCmRtu q s
  | .roceAck q kind n => Sys2Proof.Machine.execRoceAck q kind n s
  | .localAckTimeout q => Sys2Proof.Machine.execLocalAckTimeout q s
  | .ethCtlWrite p v => Sys2Proof.Machine.execEthCtlWrite p v s
  | .moltDone x => Sys2Proof.Machine.execMoltDone x s
  | .lbistDone fails => Sys2Proof.Machine.execLbistDone fails s
  | .halfResetDone x => Sys2Proof.Machine.execHalfResetDone x s
  | .warmResetDone => Sys2Proof.Machine.execWarmResetDone s
  | .phaseDone x => Sys2Proof.Machine.execPhaseDone x s

end Sys2Proof.Machine
end

