-- ==== Sys2Proof/Laws/Maps.lean ====
section
/-!
SUPPORT. The laws of the sparse maps: what a write leaves readable, and that every operation keeps the canonical form.
-/
namespace Sys2Proof.Machine

variable {α : Type}

theorem smGet_smDel_same (d : α) (m : List (Nat × α)) (x : Nat) : smGet d (smDel m x) x = d := by
  induction m with
  | nil => rfl
  | cons p m ih =>
    obtain ⟨k, v⟩ := p
    by_cases h : x = k <;> simp [smDel, smGet, h] <;> simpa [h] using ih

theorem smGet_smDel_ne (d : α) (m : List (Nat × α)) {x y : Nat} (h : y ≠ x) : smGet d (smDel m x) y = smGet d m y := by
  induction m with
  | nil => rfl
  | cons p m ih =>
    obtain ⟨k, v⟩ := p
    by_cases hx : x = k
    · subst hx; simp [smDel, smGet, h, ih]
    · simp [smDel, smGet, hx, ih]

theorem smGet_smIns_same (d : α) (m : List (Nat × α)) (x : Nat) (a : α) : smGet d (smIns m x a) x = a := by
  induction m with
  | nil => simp [smIns, smGet]
  | cons p m ih =>
    obtain ⟨k, v⟩ := p
    by_cases hx : x = k
    · simp [smIns, smGet, hx]
    · by_cases hl : x < k <;> simp [smIns, smGet, hx, hl, ih]

theorem smGet_smIns_ne (d : α) (m : List (Nat × α)) {x y : Nat} (h : y ≠ x) (a : α) :
    smGet d (smIns m x a) y = smGet d m y := by
  induction m with
  | nil => simp [smIns, smGet, h]
  | cons p m ih =>
    obtain ⟨k, v⟩ := p
    by_cases hx : x = k
    · subst hx; simp [smIns, smGet, h]
    · by_cases hl : x < k <;> simp [smIns, smGet, hx, hl, h, ih]

variable [DecidableEq α]

/-- A read after a write of the same key gives the value written. -/
@[simp] theorem smGet_smPut_same (d : α) (m : List (Nat × α)) (x : Nat) (a : α) : smGet d (smPut d m x a) x = a := by
  unfold smPut
  split
  · next h => rw [smGet_smDel_same, h]
  · exact smGet_smIns_same d m x a

/-- A write leaves every other key as it was, whatever default it is read with. -/
theorem smGet_smPut_ne (d d' : α) (m : List (Nat × α)) {x y : Nat} (h : y ≠ x) (a : α) :
    smGet d' (smPut d m x a) y = smGet d' m y := by
  unfold smPut
  split
  · exact smGet_smDel_ne d' m h
  · exact smGet_smIns_ne d' m h a

/-! ### The canonical form -/

theorem smWf_mono (d : α) {lo lo' : Nat} (m : List (Nat × α)) (h : smWf d lo m = true) (hl : lo' ≤ lo) : smWf d lo' m = true := by
  cases m with
  | nil => rfl
  | cons p m => simp_all [smWf]; omega

theorem smDel_wf (d : α) (m : List (Nat × α)) (x : Nat) : ∀ lo, smWf d lo m = true → smWf d lo (smDel m x) = true := by
  induction m with
  | nil => intro lo h; exact h
  | cons p m ih =>
    obtain ⟨k, v⟩ := p
    intro lo h
    simp only [smWf, Bool.and_eq_true, decide_eq_true_eq] at h
    by_cases hx : x = k
    · simpa [smDel, hx] using hx ▸ smWf_mono d _ (ih _ h.2) (by omega)
    · simp only [smDel, hx, if_false, smWf, Bool.and_eq_true, decide_eq_true_eq]
      exact ⟨h.1, ih _ h.2⟩

theorem smIns_wf (d : α) (m : List (Nat × α)) (x : Nat) (a : α) (ha : a ≠ d) :
    ∀ lo, lo ≤ x → smWf d lo m = true → smWf d lo (smIns m x a) = true := by
  induction m with
  | nil => intro lo hl _; simp [smIns, smWf, hl, ha]
  | cons p m ih =>
    obtain ⟨k, v⟩ := p
    intro lo hl h
    simp only [smWf, Bool.and_eq_true, decide_eq_true_eq] at h
    by_cases hx : x = k
    · subst hx; simp [smIns, smWf, hl, ha, h.2]
    · by_cases hk : x < k
      · simp only [smIns, hx, hk, if_false, if_true, smWf, Bool.and_eq_true, decide_eq_true_eq]
        exact ⟨⟨hl, ha⟩, ⟨by omega, h.1.2⟩, h.2⟩
      · simp only [smIns, hx, hk, if_false, smWf, Bool.and_eq_true, decide_eq_true_eq]
        exact ⟨h.1, ih _ (by omega) h.2⟩

/-- A write keeps the canonical form. -/
theorem smPut_wf (d : α) (m : List (Nat × α)) (x : Nat) (a : α) (h : smWf d 0 m = true) : smWf d 0 (smPut d m x a) = true := by
  unfold smPut
  split
  · exact smDel_wf d m x 0 h
  · next ha => exact smIns_wf d m x a ha 0 (Nat.zero_le x) h

/-- Several writes keep the canonical form. -/
theorem smPuts_wf (d : α) (xs : List (Nat × α)) : ∀ m : List (Nat × α), smWf d 0 m = true → smWf d 0 (smPuts d m xs) = true := by
  induction xs with
  | nil => intro m h; exact h
  | cons p xs ih => intro m h; exact ih _ (smPut_wf d m p.1 p.2 h)

/-- Taking entries out keeps the canonical form. -/
theorem smFilter_wf (d : α) (p : Nat × α → Bool) (m : List (Nat × α)) : ∀ lo, smWf d lo m = true → smWf d lo (m.filter p) = true := by
  induction m with
  | nil => intro lo h; exact h
  | cons q m ih =>
    intro lo h
    simp only [smWf, Bool.and_eq_true, decide_eq_true_eq] at h
    by_cases hp : p q
    · simp only [List.filter_cons, hp, if_true, smWf, Bool.and_eq_true, decide_eq_true_eq]
      exact ⟨h.1, ih _ h.2⟩
    · simp only [List.filter_cons, hp]
      exact smWf_mono d _ (ih _ h.2) (by omega)

end Sys2Proof.Machine
end

