-- ==== Sys2Proof/Laws/Regs.lean ====
section
/-!
SUPPORT. The laws of bit fields and registers: a field reads as it was written, and every other field and register as before.
-/
namespace Sys2Proof

theorem setBits_eq (x hi lo v : Nat) (h : lo ≤ hi) :
    setBits x hi lo v = 2 ^ lo * (2 ^ (hi - lo + 1) * (x / 2 ^ (hi + 1)) + v % 2 ^ (hi - lo + 1)) + x % 2 ^ lo := by
  have hp : 2 ^ (hi + 1) = 2 ^ lo * 2 ^ (hi - lo + 1) := by rw [← Nat.pow_add]; congr 1; omega
  have h1 := Nat.div_add_mod x (2 ^ lo)
  have h2 := Nat.div_add_mod (x / 2 ^ lo) (2 ^ (hi - lo + 1))
  rw [Nat.div_div_eq_div_mul, ← hp] at h2
  unfold setBits bits
  rw [Nat.shiftRight_eq_div_pow]
  generalize x / 2 ^ lo % 2 ^ (hi - lo + 1) = b at *
  generalize x % 2 ^ lo = l at *
  generalize v % 2 ^ (hi - lo + 1) = w at *
  generalize hq : x / 2 ^ (hi + 1) = q at *
  generalize x / 2 ^ lo = y at *
  subst h2 h1
  rw [Nat.mul_add, Nat.mul_add, Nat.mul_comm b, Nat.mul_comm w]
  omega

theorem testBit_setBits (x hi lo v i : Nat) (h : lo ≤ hi) :
    (setBits x hi lo v).testBit i = if lo ≤ i ∧ i ≤ hi then v.testBit (i - lo) else x.testBit i := by
  rw [setBits_eq x hi lo v h, Nat.testBit_two_pow_mul_add _ (Nat.mod_lt _ (Nat.two_pow_pos lo))]
  by_cases h1 : i < lo
  · simp [h1, Nat.testBit_mod_two_pow, show ¬ lo ≤ i by omega]
  · rw [if_neg h1, Nat.testBit_two_pow_mul_add _ (Nat.mod_lt _ (Nat.two_pow_pos _))]
    by_cases h2 : i ≤ hi
    · simp [show i - lo < hi - lo + 1 by omega, show lo ≤ i by omega, h2, Nat.testBit_mod_two_pow]
    · rw [if_neg (by omega), if_neg (by omega), Nat.testBit_div_two_pow]
      congr 1; omega

theorem testBit_bits (x hi lo i : Nat) : (bits x hi lo).testBit i = (decide (i < hi - lo + 1) && x.testBit (lo + i)) := by
  simp [bits, Nat.testBit_mod_two_pow, Nat.testBit_shiftRight]

/-- A field reads as it was written, cut to its width. -/
theorem bits_setBits_same (x hi lo v : Nat) (h : lo ≤ hi) : bits (setBits x hi lo v) hi lo = v % 2 ^ (hi - lo + 1) := by
  apply Nat.eq_of_testBit_eq
  intro i
  rw [testBit_bits, testBit_setBits _ _ _ _ _ h, Nat.testBit_mod_two_pow]
  by_cases hi' : i < hi - lo + 1
  · simp [hi', show lo + i ≤ hi by omega]
  · simp [hi']

/-- A write of one field leaves the fields beside it as they were. -/
theorem bits_setBits_ne (x hi lo v hi' lo' : Nat) (h : lo ≤ hi) (h' : lo' ≤ hi') (hd : hi < lo' ∨ hi' < lo) :
    bits (setBits x hi lo v) hi' lo' = bits x hi' lo' := by
  apply Nat.eq_of_testBit_eq
  intro i
  rw [testBit_bits, testBit_bits, testBit_setBits _ _ _ _ _ h]
  by_cases hi' : i < hi' - lo' + 1
  · simp [hi', show ¬ (lo ≤ lo' + i ∧ lo' + i ≤ hi) by omega]
  · simp [hi']

theorem setBits_lt (x hi lo v : Nat) (h : lo ≤ hi) (hh : hi < 64) (hx : x < 2 ^ 64) : setBits x hi lo v < 2 ^ 64 := by
  apply Nat.lt_pow_two_of_testBit
  intro i hi'
  rw [testBit_setBits _ _ _ _ _ h, if_neg (by omega)]
  exact Nat.testBit_lt_two_pow (Nat.lt_of_lt_of_le hx (Nat.pow_le_pow_right (by omega) hi'))

namespace Machine

/-- R16, R17: the address of a register of an instance, and of a global one. -/
theorem Reg.addr_local (r : Reg) (blk off stride : Nat) (h1 : r.info.blk = blk) (h2 : r.info.off = off) (h3 : r.info.stride = stride)
    (hg : r.info.glob = false) (i k : Nat) :
    r.addr i k = 0x7F0001000000 + blk * 0x10000000 + off + i * 0x10000 + k * stride := by
  unfold Reg.addr
  rw [h1, h2, h3, hg]
  simp
  omega

theorem Reg.addr_global (r : Reg) (blk off stride : Nat) (h1 : r.info.blk = blk) (h2 : r.info.off = off) (h3 : r.info.stride = stride)
    (hg : r.info.glob = true) (i k : Nat) : r.addr i k = 0x7F0000000000 + blk * 0x10000000 + off + k * stride := by
  unfold Reg.addr
  rw [h1, h2, h3, hg]
  simp

theorem State.rget_lt (s : State) (r : Reg) (i k : Nat) : s.rget r i k < 2 ^ 64 := by
  unfold State.rget; exact BitVec.isLt _

/-- A register reads as it was written. -/
theorem State.rget_rset_same (s : State) (r : Reg) (i k v : Nat) : (s.rset r i k v).rget r i k = v % 2 ^ 64 := by
  simp [State.rget, State.rset]

/-- A write of a register leaves every register at another address as it was. -/
theorem State.rget_rset_ne (s : State) (r r' : Reg) (i k v i' k' : Nat) (h : r'.addr i' k' ≠ r.addr i k) :
    (s.rset r i k v).rget r' i' k' = s.rget r' i' k' := by
  simp only [State.rget, State.rset]
  rw [smGet_smPut_ne _ _ _ h]

/-- A field reads as it was written, cut to its width. -/
theorem State.fget_fset_same (s : State) (f : Fld) (i k v : Nat) (h : f.lo ≤ f.hi) (hh : f.hi < 64) :
    (s.fset f i k v).fget f i k = v % 2 ^ (f.hi - f.lo + 1) := by
  unfold State.fget State.fset
  rw [State.rget_rset_same, Nat.mod_eq_of_lt (setBits_lt _ _ _ _ h hh (s.rget_lt ..)), bits_setBits_same _ _ _ _ h]

/-- A field of another address reads as before. -/
theorem State.fget_fset_ne (s : State) (f f' : Fld) (i k v i' k' : Nat) (h : f'.reg.addr i' k' ≠ f.reg.addr i k) :
    (s.fset f i k v).fget f' i' k' = s.fget f' i' k' := by
  unfold State.fget State.fset
  rw [State.rget_rset_ne _ _ _ _ _ _ _ _ h]

/-- Counting in a field leaves every register at another address as it was. -/
theorem State.rget_bump_ne (s : State) (f : Fld) (r' : Reg) (i k n i' k' : Nat) (h : r'.addr i' k' ≠ f.reg.addr i k) :
    (s.bump f i k n).rget r' i' k' = s.rget r' i' k' := by
  unfold State.bump
  split
  · rfl
  · exact State.rget_rset_ne _ _ _ _ _ _ _ _ h

/-- A field beside the one written, in the same register, reads as before. -/
theorem State.fget_fset_beside (s : State) (f f' : Fld) (i k v : Nat) (hr : f'.reg = f.reg) (h : f.lo ≤ f.hi) (hh : f.hi < 64)
    (h' : f'.lo ≤ f'.hi) (hd : f.hi < f'.lo ∨ f'.hi < f.lo) : (s.fset f i k v).fget f' i k = s.fget f' i k := by
  unfold State.fget State.fset
  rw [hr, State.rget_rset_same, Nat.mod_eq_of_lt (setBits_lt _ _ _ _ h hh (s.rget_lt ..)), bits_setBits_ne _ _ _ _ _ _ h h' hd]

end Machine

end Sys2Proof
end

