-- ==== Sys2Proof/Laws/State.lean ====
section
/-!
SUPPORT. What each update of the state leaves as it was, and what it writes: one lemma for each field and update.
-/
namespace Sys2Proof.Machine.State

variable (s : State)

/-! ### rset -/

@[simp] theorem rset_pending (r : Reg) (i k v : Nat) : (s.rset r i k v).pending = s.pending := rfl
@[simp] theorem rset_cc (r : Reg) (i k v : Nat) : (s.rset r i k v).cc = s.cc := rfl
@[simp] theorem rset_free (r : Reg) (i k v : Nat) : (s.rset r i k v).free = s.free := rfl
@[simp] theorem rset_mem (r : Reg) (i k v : Nat) : (s.rset r i k v).mem = s.mem := rfl
@[simp] theorem rset_syn (r : Reg) (i k v : Nat) : (s.rset r i k v).syn = s.syn := rfl
@[simp] theorem rset_gpois (r : Reg) (i k v : Nat) : (s.rset r i k v).gpois = s.gpois := rfl
@[simp] theorem rset_str (r : Reg) (i k v : Nat) : (s.rset r i k v).str = s.str := rfl
@[simp] theorem rset_stall (r : Reg) (i k v : Nat) : (s.rset r i k v).stall = s.stall := rfl
@[simp] theorem rset_cores (r : Reg) (i k v : Nat) : (s.rset r i k v).cores = s.cores := rfl
@[simp] theorem rset_vch (r : Reg) (i k v : Nat) : (s.rset r i k v).vch = s.vch := rfl
@[simp] theorem rset_flights (r : Reg) (i k v : Nat) : (s.rset r i k v).flights = s.flights := rfl
@[simp] theorem rset_raised (r : Reg) (i k v : Nat) : (s.rset r i k v).raised = s.raised := rfl
@[simp] theorem rset_errNow (r : Reg) (i k v : Nat) : (s.rset r i k v).errNow = s.errNow := rfl
@[simp] theorem rset_w1c (r : Reg) (i k v : Nat) : (s.rset r i k v).w1c = s.w1c := rfl
@[simp] theorem rset_qps (r : Reg) (i k v : Nat) : (s.rset r i k v).qps = s.qps := rfl
@[simp] theorem rset_ports (r : Reg) (i k v : Nat) : (s.rset r i k v).ports = s.ports := rfl
@[simp] theorem rset_cmds (r : Reg) (i k v : Nat) : (s.rset r i k v).cmds = s.cmds := rfl
@[simp] theorem rset_rdreqs (r : Reg) (i k v : Nat) : (s.rset r i k v).rdreqs = s.rdreqs := rfl
@[simp] theorem rset_nextReq (r : Reg) (i k v : Nat) : (s.rset r i k v).nextReq = s.nextReq := rfl
@[simp] theorem rset_bbr (r : Reg) (i k v : Nat) : (s.rset r i k v).bbr = s.bbr := rfl
@[simp] theorem rset_mgmt (r : Reg) (i k v : Nat) : (s.rset r i k v).mgmt = s.mgmt := rfl
@[simp] theorem rset_life (r : Reg) (i k v : Nat) : (s.rset r i k v).life = s.life := rfl
@[simp] theorem rset_hq (r : Reg) (i k v : Nat) : (s.rset r i k v).hq = s.hq := rfl
@[simp] theorem rset_wvl (r : Reg) (i k v : Nat) : (s.rset r i k v).wvl = s.wvl := rfl
@[simp] theorem rset_sae (r : Reg) (i k v : Nat) : (s.rset r i k v).sae = s.sae := rfl
@[simp] theorem rset_kvExh (r : Reg) (i k v : Nat) : (s.rset r i k v).kvExh = s.kvExh := rfl
@[simp] theorem rset_kvMask (r : Reg) (i k v : Nat) : (s.rset r i k v).kvMask = s.kvMask := rfl
@[simp] theorem rset_kvEmpty (r : Reg) (i k v : Nat) : (s.rset r i k v).kvEmpty = s.kvEmpty := rfl
@[simp] theorem rset_sch (r : Reg) (i k v : Nat) : (s.rset r i k v).sch = s.sch := rfl
@[simp] theorem rset_stk (r : Reg) (i k v : Nat) : (s.rset r i k v).stk = s.stk := rfl
@[simp] theorem rset_itl (r : Reg) (i k v : Nat) : (s.rset r i k v).itl = s.itl := rfl
@[simp] theorem rset_sports (r : Reg) (i k v : Nat) : (s.rset r i k v).sports = s.sports := rfl
@[simp] theorem rset_cic (r : Reg) (i k v : Nat) : (s.rset r i k v).cic = s.cic := rfl
@[simp] theorem rset_saeLapse (r : Reg) (i k v : Nat) : (s.rset r i k v).saeLapse = s.saeLapse := rfl
@[simp] theorem rset_refIvl (r : Reg) (i k v : Nat) : (s.rset r i k v).refIvl = s.refIvl := rfl
@[simp] theorem rset_pow (r : Reg) (i k v : Nat) : (s.rset r i k v).pow = s.pow := rfl
@[simp] theorem rset_totals (r : Reg) (i k v : Nat) : (s.rset r i k v).totals = s.totals := rfl
@[simp] theorem rset_undef (r : Reg) (i k v : Nat) : (s.rset r i k v).undef = s.undef := rfl

/-! ### fset -/

@[simp] theorem fset_pending (f : Fld) (i k v : Nat) : (s.fset f i k v).pending = s.pending := rfl
@[simp] theorem fset_cc (f : Fld) (i k v : Nat) : (s.fset f i k v).cc = s.cc := rfl
@[simp] theorem fset_free (f : Fld) (i k v : Nat) : (s.fset f i k v).free = s.free := rfl
@[simp] theorem fset_mem (f : Fld) (i k v : Nat) : (s.fset f i k v).mem = s.mem := rfl
@[simp] theorem fset_syn (f : Fld) (i k v : Nat) : (s.fset f i k v).syn = s.syn := rfl
@[simp] theorem fset_gpois (f : Fld) (i k v : Nat) : (s.fset f i k v).gpois = s.gpois := rfl
@[simp] theorem fset_str (f : Fld) (i k v : Nat) : (s.fset f i k v).str = s.str := rfl
@[simp] theorem fset_stall (f : Fld) (i k v : Nat) : (s.fset f i k v).stall = s.stall := rfl
@[simp] theorem fset_cores (f : Fld) (i k v : Nat) : (s.fset f i k v).cores = s.cores := rfl
@[simp] theorem fset_vch (f : Fld) (i k v : Nat) : (s.fset f i k v).vch = s.vch := rfl
@[simp] theorem fset_flights (f : Fld) (i k v : Nat) : (s.fset f i k v).flights = s.flights := rfl
@[simp] theorem fset_raised (f : Fld) (i k v : Nat) : (s.fset f i k v).raised = s.raised := rfl
@[simp] theorem fset_errNow (f : Fld) (i k v : Nat) : (s.fset f i k v).errNow = s.errNow := rfl
@[simp] theorem fset_w1c (f : Fld) (i k v : Nat) : (s.fset f i k v).w1c = s.w1c := rfl
@[simp] theorem fset_qps (f : Fld) (i k v : Nat) : (s.fset f i k v).qps = s.qps := rfl
@[simp] theorem fset_ports (f : Fld) (i k v : Nat) : (s.fset f i k v).ports = s.ports := rfl
@[simp] theorem fset_cmds (f : Fld) (i k v : Nat) : (s.fset f i k v).cmds = s.cmds := rfl
@[simp] theorem fset_rdreqs (f : Fld) (i k v : Nat) : (s.fset f i k v).rdreqs = s.rdreqs := rfl
@[simp] theorem fset_nextReq (f : Fld) (i k v : Nat) : (s.fset f i k v).nextReq = s.nextReq := rfl
@[simp] theorem fset_bbr (f : Fld) (i k v : Nat) : (s.fset f i k v).bbr = s.bbr := rfl
@[simp] theorem fset_mgmt (f : Fld) (i k v : Nat) : (s.fset f i k v).mgmt = s.mgmt := rfl
@[simp] theorem fset_life (f : Fld) (i k v : Nat) : (s.fset f i k v).life = s.life := rfl
@[simp] theorem fset_hq (f : Fld) (i k v : Nat) : (s.fset f i k v).hq = s.hq := rfl
@[simp] theorem fset_wvl (f : Fld) (i k v : Nat) : (s.fset f i k v).wvl = s.wvl := rfl
@[simp] theorem fset_sae (f : Fld) (i k v : Nat) : (s.fset f i k v).sae = s.sae := rfl
@[simp] theorem fset_kvExh (f : Fld) (i k v : Nat) : (s.fset f i k v).kvExh = s.kvExh := rfl
@[simp] theorem fset_kvMask (f : Fld) (i k v : Nat) : (s.fset f i k v).kvMask = s.kvMask := rfl
@[simp] theorem fset_kvEmpty (f : Fld) (i k v : Nat) : (s.fset f i k v).kvEmpty = s.kvEmpty := rfl
@[simp] theorem fset_sch (f : Fld) (i k v : Nat) : (s.fset f i k v).sch = s.sch := rfl
@[simp] theorem fset_stk (f : Fld) (i k v : Nat) : (s.fset f i k v).stk = s.stk := rfl
@[simp] theorem fset_itl (f : Fld) (i k v : Nat) : (s.fset f i k v).itl = s.itl := rfl
@[simp] theorem fset_sports (f : Fld) (i k v : Nat) : (s.fset f i k v).sports = s.sports := rfl
@[simp] theorem fset_cic (f : Fld) (i k v : Nat) : (s.fset f i k v).cic = s.cic := rfl
@[simp] theorem fset_saeLapse (f : Fld) (i k v : Nat) : (s.fset f i k v).saeLapse = s.saeLapse := rfl
@[simp] theorem fset_refIvl (f : Fld) (i k v : Nat) : (s.fset f i k v).refIvl = s.refIvl := rfl
@[simp] theorem fset_pow (f : Fld) (i k v : Nat) : (s.fset f i k v).pow = s.pow := rfl
@[simp] theorem fset_totals (f : Fld) (i k v : Nat) : (s.fset f i k v).totals = s.totals := rfl
@[simp] theorem fset_undef (f : Fld) (i k v : Nat) : (s.fset f i k v).undef = s.undef := rfl

/-! ### setStr -/

@[simp] theorem setStr_pending (x : Stream) : (s.setStr x).pending = s.pending := rfl
@[simp] theorem setStr_cc (x : Stream) : (s.setStr x).cc = s.cc := rfl
@[simp] theorem setStr_free (x : Stream) : (s.setStr x).free = s.free := rfl
@[simp] theorem setStr_regs (x : Stream) : (s.setStr x).regs = s.regs := rfl
@[simp] theorem setStr_mem (x : Stream) : (s.setStr x).mem = s.mem := rfl
@[simp] theorem setStr_syn (x : Stream) : (s.setStr x).syn = s.syn := rfl
@[simp] theorem setStr_gpois (x : Stream) : (s.setStr x).gpois = s.gpois := rfl
@[simp] theorem setStr_str (x : Stream) : (s.setStr x).str = x := rfl
@[simp] theorem setStr_stall (x : Stream) : (s.setStr x).stall = s.stall := rfl
@[simp] theorem setStr_cores (x : Stream) : (s.setStr x).cores = s.cores := rfl
@[simp] theorem setStr_vch (x : Stream) : (s.setStr x).vch = s.vch := rfl
@[simp] theorem setStr_flights (x : Stream) : (s.setStr x).flights = s.flights := rfl
@[simp] theorem setStr_raised (x : Stream) : (s.setStr x).raised = s.raised := rfl
@[simp] theorem setStr_errNow (x : Stream) : (s.setStr x).errNow = s.errNow := rfl
@[simp] theorem setStr_w1c (x : Stream) : (s.setStr x).w1c = s.w1c := rfl
@[simp] theorem setStr_qps (x : Stream) : (s.setStr x).qps = s.qps := rfl
@[simp] theorem setStr_ports (x : Stream) : (s.setStr x).ports = s.ports := rfl
@[simp] theorem setStr_cmds (x : Stream) : (s.setStr x).cmds = s.cmds := rfl
@[simp] theorem setStr_rdreqs (x : Stream) : (s.setStr x).rdreqs = s.rdreqs := rfl
@[simp] theorem setStr_nextReq (x : Stream) : (s.setStr x).nextReq = s.nextReq := rfl
@[simp] theorem setStr_bbr (x : Stream) : (s.setStr x).bbr = s.bbr := rfl
@[simp] theorem setStr_mgmt (x : Stream) : (s.setStr x).mgmt = s.mgmt := rfl
@[simp] theorem setStr_life (x : Stream) : (s.setStr x).life = s.life := rfl
@[simp] theorem setStr_hq (x : Stream) : (s.setStr x).hq = s.hq := rfl
@[simp] theorem setStr_wvl (x : Stream) : (s.setStr x).wvl = s.wvl := rfl
@[simp] theorem setStr_sae (x : Stream) : (s.setStr x).sae = s.sae := rfl
@[simp] theorem setStr_kvExh (x : Stream) : (s.setStr x).kvExh = s.kvExh := rfl
@[simp] theorem setStr_kvMask (x : Stream) : (s.setStr x).kvMask = s.kvMask := rfl
@[simp] theorem setStr_kvEmpty (x : Stream) : (s.setStr x).kvEmpty = s.kvEmpty := rfl
@[simp] theorem setStr_sch (x : Stream) : (s.setStr x).sch = s.sch := rfl
@[simp] theorem setStr_stk (x : Stream) : (s.setStr x).stk = s.stk := rfl
@[simp] theorem setStr_itl (x : Stream) : (s.setStr x).itl = s.itl := rfl
@[simp] theorem setStr_sports (x : Stream) : (s.setStr x).sports = s.sports := rfl
@[simp] theorem setStr_cic (x : Stream) : (s.setStr x).cic = s.cic := rfl
@[simp] theorem setStr_saeLapse (x : Stream) : (s.setStr x).saeLapse = s.saeLapse := rfl
@[simp] theorem setStr_refIvl (x : Stream) : (s.setStr x).refIvl = s.refIvl := rfl
@[simp] theorem setStr_pow (x : Stream) : (s.setStr x).pow = s.pow := rfl
@[simp] theorem setStr_totals (x : Stream) : (s.setStr x).totals = s.totals := rfl
@[simp] theorem setStr_undef (x : Stream) : (s.setStr x).undef = s.undef := rfl

/-! ### setStall -/

@[simp] theorem setStall_pending (x : Stall) : (s.setStall x).pending = s.pending := rfl
@[simp] theorem setStall_cc (x : Stall) : (s.setStall x).cc = s.cc := rfl
@[simp] theorem setStall_free (x : Stall) : (s.setStall x).free = s.free := rfl
@[simp] theorem setStall_regs (x : Stall) : (s.setStall x).regs = s.regs := rfl
@[simp] theorem setStall_mem (x : Stall) : (s.setStall x).mem = s.mem := rfl
@[simp] theorem setStall_syn (x : Stall) : (s.setStall x).syn = s.syn := rfl
@[simp] theorem setStall_gpois (x : Stall) : (s.setStall x).gpois = s.gpois := rfl
@[simp] theorem setStall_str (x : Stall) : (s.setStall x).str = s.str := rfl
@[simp] theorem setStall_stall (x : Stall) : (s.setStall x).stall = x := rfl
@[simp] theorem setStall_cores (x : Stall) : (s.setStall x).cores = s.cores := rfl
@[simp] theorem setStall_vch (x : Stall) : (s.setStall x).vch = s.vch := rfl
@[simp] theorem setStall_flights (x : Stall) : (s.setStall x).flights = s.flights := rfl
@[simp] theorem setStall_raised (x : Stall) : (s.setStall x).raised = s.raised := rfl
@[simp] theorem setStall_errNow (x : Stall) : (s.setStall x).errNow = s.errNow := rfl
@[simp] theorem setStall_w1c (x : Stall) : (s.setStall x).w1c = s.w1c := rfl
@[simp] theorem setStall_qps (x : Stall) : (s.setStall x).qps = s.qps := rfl
@[simp] theorem setStall_ports (x : Stall) : (s.setStall x).ports = s.ports := rfl
@[simp] theorem setStall_cmds (x : Stall) : (s.setStall x).cmds = s.cmds := rfl
@[simp] theorem setStall_rdreqs (x : Stall) : (s.setStall x).rdreqs = s.rdreqs := rfl
@[simp] theorem setStall_nextReq (x : Stall) : (s.setStall x).nextReq = s.nextReq := rfl
@[simp] theorem setStall_bbr (x : Stall) : (s.setStall x).bbr = s.bbr := rfl
@[simp] theorem setStall_mgmt (x : Stall) : (s.setStall x).mgmt = s.mgmt := rfl
@[simp] theorem setStall_life (x : Stall) : (s.setStall x).life = s.life := rfl
@[simp] theorem setStall_hq (x : Stall) : (s.setStall x).hq = s.hq := rfl
@[simp] theorem setStall_wvl (x : Stall) : (s.setStall x).wvl = s.wvl := rfl
@[simp] theorem setStall_sae (x : Stall) : (s.setStall x).sae = s.sae := rfl
@[simp] theorem setStall_kvExh (x : Stall) : (s.setStall x).kvExh = s.kvExh := rfl
@[simp] theorem setStall_kvMask (x : Stall) : (s.setStall x).kvMask = s.kvMask := rfl
@[simp] theorem setStall_kvEmpty (x : Stall) : (s.setStall x).kvEmpty = s.kvEmpty := rfl
@[simp] theorem setStall_sch (x : Stall) : (s.setStall x).sch = s.sch := rfl
@[simp] theorem setStall_stk (x : Stall) : (s.setStall x).stk = s.stk := rfl
@[simp] theorem setStall_itl (x : Stall) : (s.setStall x).itl = s.itl := rfl
@[simp] theorem setStall_sports (x : Stall) : (s.setStall x).sports = s.sports := rfl
@[simp] theorem setStall_cic (x : Stall) : (s.setStall x).cic = s.cic := rfl
@[simp] theorem setStall_saeLapse (x : Stall) : (s.setStall x).saeLapse = s.saeLapse := rfl
@[simp] theorem setStall_refIvl (x : Stall) : (s.setStall x).refIvl = s.refIvl := rfl
@[simp] theorem setStall_pow (x : Stall) : (s.setStall x).pow = s.pow := rfl
@[simp] theorem setStall_totals (x : Stall) : (s.setStall x).totals = s.totals := rfl
@[simp] theorem setStall_undef (x : Stall) : (s.setStall x).undef = s.undef := rfl

/-! ### setQp -/

@[simp] theorem setQp_pending (q : Nat) (v : Qp) : (s.setQp q v).pending = s.pending := rfl
@[simp] theorem setQp_cc (q : Nat) (v : Qp) : (s.setQp q v).cc = s.cc := rfl
@[simp] theorem setQp_free (q : Nat) (v : Qp) : (s.setQp q v).free = s.free := rfl
@[simp] theorem setQp_regs (q : Nat) (v : Qp) : (s.setQp q v).regs = s.regs := rfl
@[simp] theorem setQp_mem (q : Nat) (v : Qp) : (s.setQp q v).mem = s.mem := rfl
@[simp] theorem setQp_syn (q : Nat) (v : Qp) : (s.setQp q v).syn = s.syn := rfl
@[simp] theorem setQp_gpois (q : Nat) (v : Qp) : (s.setQp q v).gpois = s.gpois := rfl
@[simp] theorem setQp_str (q : Nat) (v : Qp) : (s.setQp q v).str = s.str := rfl
@[simp] theorem setQp_stall (q : Nat) (v : Qp) : (s.setQp q v).stall = s.stall := rfl
@[simp] theorem setQp_cores (q : Nat) (v : Qp) : (s.setQp q v).cores = s.cores := rfl
@[simp] theorem setQp_vch (q : Nat) (v : Qp) : (s.setQp q v).vch = s.vch := rfl
@[simp] theorem setQp_flights (q : Nat) (v : Qp) : (s.setQp q v).flights = s.flights := rfl
@[simp] theorem setQp_raised (q : Nat) (v : Qp) : (s.setQp q v).raised = s.raised := rfl
@[simp] theorem setQp_errNow (q : Nat) (v : Qp) : (s.setQp q v).errNow = s.errNow := rfl
@[simp] theorem setQp_w1c (q : Nat) (v : Qp) : (s.setQp q v).w1c = s.w1c := rfl
@[simp] theorem setQp_ports (q : Nat) (v : Qp) : (s.setQp q v).ports = s.ports := rfl
@[simp] theorem setQp_cmds (q : Nat) (v : Qp) : (s.setQp q v).cmds = s.cmds := rfl
@[simp] theorem setQp_rdreqs (q : Nat) (v : Qp) : (s.setQp q v).rdreqs = s.rdreqs := rfl
@[simp] theorem setQp_nextReq (q : Nat) (v : Qp) : (s.setQp q v).nextReq = s.nextReq := rfl
@[simp] theorem setQp_bbr (q : Nat) (v : Qp) : (s.setQp q v).bbr = s.bbr := rfl
@[simp] theorem setQp_mgmt (q : Nat) (v : Qp) : (s.setQp q v).mgmt = s.mgmt := rfl
@[simp] theorem setQp_life (q : Nat) (v : Qp) : (s.setQp q v).life = s.life := rfl
@[simp] theorem setQp_hq (q : Nat) (v : Qp) : (s.setQp q v).hq = s.hq := rfl
@[simp] theorem setQp_wvl (q : Nat) (v : Qp) : (s.setQp q v).wvl = s.wvl := rfl
@[simp] theorem setQp_sae (q : Nat) (v : Qp) : (s.setQp q v).sae = s.sae := rfl
@[simp] theorem setQp_kvExh (q : Nat) (v : Qp) : (s.setQp q v).kvExh = s.kvExh := rfl
@[simp] theorem setQp_kvMask (q : Nat) (v : Qp) : (s.setQp q v).kvMask = s.kvMask := rfl
@[simp] theorem setQp_kvEmpty (q : Nat) (v : Qp) : (s.setQp q v).kvEmpty = s.kvEmpty := rfl
@[simp] theorem setQp_sch (q : Nat) (v : Qp) : (s.setQp q v).sch = s.sch := rfl
@[simp] theorem setQp_stk (q : Nat) (v : Qp) : (s.setQp q v).stk = s.stk := rfl
@[simp] theorem setQp_itl (q : Nat) (v : Qp) : (s.setQp q v).itl = s.itl := rfl
@[simp] theorem setQp_sports (q : Nat) (v : Qp) : (s.setQp q v).sports = s.sports := rfl
@[simp] theorem setQp_cic (q : Nat) (v : Qp) : (s.setQp q v).cic = s.cic := rfl
@[simp] theorem setQp_saeLapse (q : Nat) (v : Qp) : (s.setQp q v).saeLapse = s.saeLapse := rfl
@[simp] theorem setQp_refIvl (q : Nat) (v : Qp) : (s.setQp q v).refIvl = s.refIvl := rfl
@[simp] theorem setQp_pow (q : Nat) (v : Qp) : (s.setQp q v).pow = s.pow := rfl
@[simp] theorem setQp_totals (q : Nat) (v : Qp) : (s.setQp q v).totals = s.totals := rfl
@[simp] theorem setQp_undef (q : Nat) (v : Qp) : (s.setQp q v).undef = s.undef := rfl

/-! ### setPort -/

@[simp] theorem setPort_pending (p : Nat) (v : Port) : (s.setPort p v).pending = s.pending := rfl
@[simp] theorem setPort_cc (p : Nat) (v : Port) : (s.setPort p v).cc = s.cc := rfl
@[simp] theorem setPort_free (p : Nat) (v : Port) : (s.setPort p v).free = s.free := rfl
@[simp] theorem setPort_regs (p : Nat) (v : Port) : (s.setPort p v).regs = s.regs := rfl
@[simp] theorem setPort_mem (p : Nat) (v : Port) : (s.setPort p v).mem = s.mem := rfl
@[simp] theorem setPort_syn (p : Nat) (v : Port) : (s.setPort p v).syn = s.syn := rfl
@[simp] theorem setPort_gpois (p : Nat) (v : Port) : (s.setPort p v).gpois = s.gpois := rfl
@[simp] theorem setPort_str (p : Nat) (v : Port) : (s.setPort p v).str = s.str := rfl
@[simp] theorem setPort_stall (p : Nat) (v : Port) : (s.setPort p v).stall = s.stall := rfl
@[simp] theorem setPort_cores (p : Nat) (v : Port) : (s.setPort p v).cores = s.cores := rfl
@[simp] theorem setPort_vch (p : Nat) (v : Port) : (s.setPort p v).vch = s.vch := rfl
@[simp] theorem setPort_flights (p : Nat) (v : Port) : (s.setPort p v).flights = s.flights := rfl
@[simp] theorem setPort_raised (p : Nat) (v : Port) : (s.setPort p v).raised = s.raised := rfl
@[simp] theorem setPort_errNow (p : Nat) (v : Port) : (s.setPort p v).errNow = s.errNow := rfl
@[simp] theorem setPort_w1c (p : Nat) (v : Port) : (s.setPort p v).w1c = s.w1c := rfl
@[simp] theorem setPort_qps (p : Nat) (v : Port) : (s.setPort p v).qps = s.qps := rfl
@[simp] theorem setPort_cmds (p : Nat) (v : Port) : (s.setPort p v).cmds = s.cmds := rfl
@[simp] theorem setPort_rdreqs (p : Nat) (v : Port) : (s.setPort p v).rdreqs = s.rdreqs := rfl
@[simp] theorem setPort_nextReq (p : Nat) (v : Port) : (s.setPort p v).nextReq = s.nextReq := rfl
@[simp] theorem setPort_bbr (p : Nat) (v : Port) : (s.setPort p v).bbr = s.bbr := rfl
@[simp] theorem setPort_mgmt (p : Nat) (v : Port) : (s.setPort p v).mgmt = s.mgmt := rfl
@[simp] theorem setPort_life (p : Nat) (v : Port) : (s.setPort p v).life = s.life := rfl
@[simp] theorem setPort_hq (p : Nat) (v : Port) : (s.setPort p v).hq = s.hq := rfl
@[simp] theorem setPort_wvl (p : Nat) (v : Port) : (s.setPort p v).wvl = s.wvl := rfl
@[simp] theorem setPort_sae (p : Nat) (v : Port) : (s.setPort p v).sae = s.sae := rfl
@[simp] theorem setPort_kvExh (p : Nat) (v : Port) : (s.setPort p v).kvExh = s.kvExh := rfl
@[simp] theorem setPort_kvMask (p : Nat) (v : Port) : (s.setPort p v).kvMask = s.kvMask := rfl
@[simp] theorem setPort_kvEmpty (p : Nat) (v : Port) : (s.setPort p v).kvEmpty = s.kvEmpty := rfl
@[simp] theorem setPort_sch (p : Nat) (v : Port) : (s.setPort p v).sch = s.sch := rfl
@[simp] theorem setPort_stk (p : Nat) (v : Port) : (s.setPort p v).stk = s.stk := rfl
@[simp] theorem setPort_itl (p : Nat) (v : Port) : (s.setPort p v).itl = s.itl := rfl
@[simp] theorem setPort_sports (p : Nat) (v : Port) : (s.setPort p v).sports = s.sports := rfl
@[simp] theorem setPort_cic (p : Nat) (v : Port) : (s.setPort p v).cic = s.cic := rfl
@[simp] theorem setPort_saeLapse (p : Nat) (v : Port) : (s.setPort p v).saeLapse = s.saeLapse := rfl
@[simp] theorem setPort_refIvl (p : Nat) (v : Port) : (s.setPort p v).refIvl = s.refIvl := rfl
@[simp] theorem setPort_pow (p : Nat) (v : Port) : (s.setPort p v).pow = s.pow := rfl
@[simp] theorem setPort_totals (p : Nat) (v : Port) : (s.setPort p v).totals = s.totals := rfl
@[simp] theorem setPort_undef (p : Nat) (v : Port) : (s.setPort p v).undef = s.undef := rfl

/-! ### setMgmt -/

@[simp] theorem setMgmt_pending (m : Mgmt) : (s.setMgmt m).pending = s.pending := rfl
@[simp] theorem setMgmt_cc (m : Mgmt) : (s.setMgmt m).cc = s.cc := rfl
@[simp] theorem setMgmt_free (m : Mgmt) : (s.setMgmt m).free = s.free := rfl
@[simp] theorem setMgmt_regs (m : Mgmt) : (s.setMgmt m).regs = s.regs := rfl
@[simp] theorem setMgmt_mem (m : Mgmt) : (s.setMgmt m).mem = s.mem := rfl
@[simp] theorem setMgmt_syn (m : Mgmt) : (s.setMgmt m).syn = s.syn := rfl
@[simp] theorem setMgmt_gpois (m : Mgmt) : (s.setMgmt m).gpois = s.gpois := rfl
@[simp] theorem setMgmt_str (m : Mgmt) : (s.setMgmt m).str = s.str := rfl
@[simp] theorem setMgmt_stall (m : Mgmt) : (s.setMgmt m).stall = s.stall := rfl
@[simp] theorem setMgmt_cores (m : Mgmt) : (s.setMgmt m).cores = s.cores := rfl
@[simp] theorem setMgmt_vch (m : Mgmt) : (s.setMgmt m).vch = s.vch := rfl
@[simp] theorem setMgmt_flights (m : Mgmt) : (s.setMgmt m).flights = s.flights := rfl
@[simp] theorem setMgmt_raised (m : Mgmt) : (s.setMgmt m).raised = s.raised := rfl
@[simp] theorem setMgmt_errNow (m : Mgmt) : (s.setMgmt m).errNow = s.errNow := rfl
@[simp] theorem setMgmt_w1c (m : Mgmt) : (s.setMgmt m).w1c = s.w1c := rfl
@[simp] theorem setMgmt_qps (m : Mgmt) : (s.setMgmt m).qps = s.qps := rfl
@[simp] theorem setMgmt_ports (m : Mgmt) : (s.setMgmt m).ports = s.ports := rfl
@[simp] theorem setMgmt_cmds (m : Mgmt) : (s.setMgmt m).cmds = s.cmds := rfl
@[simp] theorem setMgmt_rdreqs (m : Mgmt) : (s.setMgmt m).rdreqs = s.rdreqs := rfl
@[simp] theorem setMgmt_nextReq (m : Mgmt) : (s.setMgmt m).nextReq = s.nextReq := rfl
@[simp] theorem setMgmt_bbr (m : Mgmt) : (s.setMgmt m).bbr = s.bbr := rfl
@[simp] theorem setMgmt_mgmt (m : Mgmt) : (s.setMgmt m).mgmt = m := rfl
@[simp] theorem setMgmt_life (m : Mgmt) : (s.setMgmt m).life = s.life := rfl
@[simp] theorem setMgmt_hq (m : Mgmt) : (s.setMgmt m).hq = s.hq := rfl
@[simp] theorem setMgmt_wvl (m : Mgmt) : (s.setMgmt m).wvl = s.wvl := rfl
@[simp] theorem setMgmt_sae (m : Mgmt) : (s.setMgmt m).sae = s.sae := rfl
@[simp] theorem setMgmt_kvExh (m : Mgmt) : (s.setMgmt m).kvExh = s.kvExh := rfl
@[simp] theorem setMgmt_kvMask (m : Mgmt) : (s.setMgmt m).kvMask = s.kvMask := rfl
@[simp] theorem setMgmt_kvEmpty (m : Mgmt) : (s.setMgmt m).kvEmpty = s.kvEmpty := rfl
@[simp] theorem setMgmt_sch (m : Mgmt) : (s.setMgmt m).sch = s.sch := rfl
@[simp] theorem setMgmt_stk (m : Mgmt) : (s.setMgmt m).stk = s.stk := rfl
@[simp] theorem setMgmt_itl (m : Mgmt) : (s.setMgmt m).itl = s.itl := rfl
@[simp] theorem setMgmt_sports (m : Mgmt) : (s.setMgmt m).sports = s.sports := rfl
@[simp] theorem setMgmt_cic (m : Mgmt) : (s.setMgmt m).cic = s.cic := rfl
@[simp] theorem setMgmt_saeLapse (m : Mgmt) : (s.setMgmt m).saeLapse = s.saeLapse := rfl
@[simp] theorem setMgmt_refIvl (m : Mgmt) : (s.setMgmt m).refIvl = s.refIvl := rfl
@[simp] theorem setMgmt_pow (m : Mgmt) : (s.setMgmt m).pow = s.pow := rfl
@[simp] theorem setMgmt_totals (m : Mgmt) : (s.setMgmt m).totals = s.totals := rfl
@[simp] theorem setMgmt_undef (m : Mgmt) : (s.setMgmt m).undef = s.undef := rfl

/-! ### setCic -/

@[simp] theorem setCic_pending (c : Cic) : (s.setCic c).pending = s.pending := rfl
@[simp] theorem setCic_cc (c : Cic) : (s.setCic c).cc = s.cc := rfl
@[simp] theorem setCic_free (c : Cic) : (s.setCic c).free = s.free := rfl
@[simp] theorem setCic_regs (c : Cic) : (s.setCic c).regs = s.regs := rfl
@[simp] theorem setCic_mem (c : Cic) : (s.setCic c).mem = s.mem := rfl
@[simp] theorem setCic_syn (c : Cic) : (s.setCic c).syn = s.syn := rfl
@[simp] theorem setCic_gpois (c : Cic) : (s.setCic c).gpois = s.gpois := rfl
@[simp] theorem setCic_str (c : Cic) : (s.setCic c).str = s.str := rfl
@[simp] theorem setCic_stall (c : Cic) : (s.setCic c).stall = s.stall := rfl
@[simp] theorem setCic_cores (c : Cic) : (s.setCic c).cores = s.cores := rfl
@[simp] theorem setCic_vch (c : Cic) : (s.setCic c).vch = s.vch := rfl
@[simp] theorem setCic_flights (c : Cic) : (s.setCic c).flights = s.flights := rfl
@[simp] theorem setCic_raised (c : Cic) : (s.setCic c).raised = s.raised := rfl
@[simp] theorem setCic_errNow (c : Cic) : (s.setCic c).errNow = s.errNow := rfl
@[simp] theorem setCic_w1c (c : Cic) : (s.setCic c).w1c = s.w1c := rfl
@[simp] theorem setCic_qps (c : Cic) : (s.setCic c).qps = s.qps := rfl
@[simp] theorem setCic_ports (c : Cic) : (s.setCic c).ports = s.ports := rfl
@[simp] theorem setCic_cmds (c : Cic) : (s.setCic c).cmds = s.cmds := rfl
@[simp] theorem setCic_rdreqs (c : Cic) : (s.setCic c).rdreqs = s.rdreqs := rfl
@[simp] theorem setCic_nextReq (c : Cic) : (s.setCic c).nextReq = s.nextReq := rfl
@[simp] theorem setCic_bbr (c : Cic) : (s.setCic c).bbr = s.bbr := rfl
@[simp] theorem setCic_mgmt (c : Cic) : (s.setCic c).mgmt = s.mgmt := rfl
@[simp] theorem setCic_life (c : Cic) : (s.setCic c).life = s.life := rfl
@[simp] theorem setCic_hq (c : Cic) : (s.setCic c).hq = s.hq := rfl
@[simp] theorem setCic_wvl (c : Cic) : (s.setCic c).wvl = s.wvl := rfl
@[simp] theorem setCic_sae (c : Cic) : (s.setCic c).sae = s.sae := rfl
@[simp] theorem setCic_kvExh (c : Cic) : (s.setCic c).kvExh = s.kvExh := rfl
@[simp] theorem setCic_kvMask (c : Cic) : (s.setCic c).kvMask = s.kvMask := rfl
@[simp] theorem setCic_kvEmpty (c : Cic) : (s.setCic c).kvEmpty = s.kvEmpty := rfl
@[simp] theorem setCic_sch (c : Cic) : (s.setCic c).sch = s.sch := rfl
@[simp] theorem setCic_stk (c : Cic) : (s.setCic c).stk = s.stk := rfl
@[simp] theorem setCic_itl (c : Cic) : (s.setCic c).itl = s.itl := rfl
@[simp] theorem setCic_sports (c : Cic) : (s.setCic c).sports = s.sports := rfl
@[simp] theorem setCic_cic (c : Cic) : (s.setCic c).cic = c := rfl
@[simp] theorem setCic_saeLapse (c : Cic) : (s.setCic c).saeLapse = s.saeLapse := rfl
@[simp] theorem setCic_refIvl (c : Cic) : (s.setCic c).refIvl = s.refIvl := rfl
@[simp] theorem setCic_pow (c : Cic) : (s.setCic c).pow = s.pow := rfl
@[simp] theorem setCic_totals (c : Cic) : (s.setCic c).totals = s.totals := rfl
@[simp] theorem setCic_undef (c : Cic) : (s.setCic c).undef = s.undef := rfl

/-! ### setCore -/

@[simp] theorem setCore_pending (n : Nat) (c : Core) : (s.setCore n c).pending = s.pending := rfl
@[simp] theorem setCore_cc (n : Nat) (c : Core) : (s.setCore n c).cc = s.cc := rfl
@[simp] theorem setCore_free (n : Nat) (c : Core) : (s.setCore n c).free = s.free := rfl
@[simp] theorem setCore_regs (n : Nat) (c : Core) : (s.setCore n c).regs = s.regs := rfl
@[simp] theorem setCore_mem (n : Nat) (c : Core) : (s.setCore n c).mem = s.mem := rfl
@[simp] theorem setCore_syn (n : Nat) (c : Core) : (s.setCore n c).syn = s.syn := rfl
@[simp] theorem setCore_gpois (n : Nat) (c : Core) : (s.setCore n c).gpois = s.gpois := rfl
@[simp] theorem setCore_str (n : Nat) (c : Core) : (s.setCore n c).str = s.str := rfl
@[simp] theorem setCore_stall (n : Nat) (c : Core) : (s.setCore n c).stall = s.stall := rfl
@[simp] theorem setCore_vch (n : Nat) (c : Core) : (s.setCore n c).vch = s.vch := rfl
@[simp] theorem setCore_flights (n : Nat) (c : Core) : (s.setCore n c).flights = s.flights := rfl
@[simp] theorem setCore_raised (n : Nat) (c : Core) : (s.setCore n c).raised = s.raised := rfl
@[simp] theorem setCore_errNow (n : Nat) (c : Core) : (s.setCore n c).errNow = s.errNow := rfl
@[simp] theorem setCore_w1c (n : Nat) (c : Core) : (s.setCore n c).w1c = s.w1c := rfl
@[simp] theorem setCore_qps (n : Nat) (c : Core) : (s.setCore n c).qps = s.qps := rfl
@[simp] theorem setCore_ports (n : Nat) (c : Core) : (s.setCore n c).ports = s.ports := rfl
@[simp] theorem setCore_cmds (n : Nat) (c : Core) : (s.setCore n c).cmds = s.cmds := rfl
@[simp] theorem setCore_rdreqs (n : Nat) (c : Core) : (s.setCore n c).rdreqs = s.rdreqs := rfl
@[simp] theorem setCore_nextReq (n : Nat) (c : Core) : (s.setCore n c).nextReq = s.nextReq := rfl
@[simp] theorem setCore_bbr (n : Nat) (c : Core) : (s.setCore n c).bbr = s.bbr := rfl
@[simp] theorem setCore_mgmt (n : Nat) (c : Core) : (s.setCore n c).mgmt = s.mgmt := rfl
@[simp] theorem setCore_life (n : Nat) (c : Core) : (s.setCore n c).life = s.life := rfl
@[simp] theorem setCore_hq (n : Nat) (c : Core) : (s.setCore n c).hq = s.hq := rfl
@[simp] theorem setCore_wvl (n : Nat) (c : Core) : (s.setCore n c).wvl = s.wvl := rfl
@[simp] theorem setCore_sae (n : Nat) (c : Core) : (s.setCore n c).sae = s.sae := rfl
@[simp] theorem setCore_kvExh (n : Nat) (c : Core) : (s.setCore n c).kvExh = s.kvExh := rfl
@[simp] theorem setCore_kvMask (n : Nat) (c : Core) : (s.setCore n c).kvMask = s.kvMask := rfl
@[simp] theorem setCore_kvEmpty (n : Nat) (c : Core) : (s.setCore n c).kvEmpty = s.kvEmpty := rfl
@[simp] theorem setCore_sch (n : Nat) (c : Core) : (s.setCore n c).sch = s.sch := rfl
@[simp] theorem setCore_stk (n : Nat) (c : Core) : (s.setCore n c).stk = s.stk := rfl
@[simp] theorem setCore_itl (n : Nat) (c : Core) : (s.setCore n c).itl = s.itl := rfl
@[simp] theorem setCore_sports (n : Nat) (c : Core) : (s.setCore n c).sports = s.sports := rfl
@[simp] theorem setCore_cic (n : Nat) (c : Core) : (s.setCore n c).cic = s.cic := rfl
@[simp] theorem setCore_saeLapse (n : Nat) (c : Core) : (s.setCore n c).saeLapse = s.saeLapse := rfl
@[simp] theorem setCore_refIvl (n : Nat) (c : Core) : (s.setCore n c).refIvl = s.refIvl := rfl
@[simp] theorem setCore_pow (n : Nat) (c : Core) : (s.setCore n c).pow = s.pow := rfl
@[simp] theorem setCore_totals (n : Nat) (c : Core) : (s.setCore n c).totals = s.totals := rfl
@[simp] theorem setCore_undef (n : Nat) (c : Core) : (s.setCore n c).undef = s.undef := rfl

/-! ### setChan -/

@[simp] theorem setChan_pending (c : Chan) (v : VCh) : (s.setChan c v).pending = s.pending := rfl
@[simp] theorem setChan_cc (c : Chan) (v : VCh) : (s.setChan c v).cc = s.cc := rfl
@[simp] theorem setChan_free (c : Chan) (v : VCh) : (s.setChan c v).free = s.free := rfl
@[simp] theorem setChan_regs (c : Chan) (v : VCh) : (s.setChan c v).regs = s.regs := rfl
@[simp] theorem setChan_mem (c : Chan) (v : VCh) : (s.setChan c v).mem = s.mem := rfl
@[simp] theorem setChan_syn (c : Chan) (v : VCh) : (s.setChan c v).syn = s.syn := rfl
@[simp] theorem setChan_gpois (c : Chan) (v : VCh) : (s.setChan c v).gpois = s.gpois := rfl
@[simp] theorem setChan_str (c : Chan) (v : VCh) : (s.setChan c v).str = s.str := rfl
@[simp] theorem setChan_stall (c : Chan) (v : VCh) : (s.setChan c v).stall = s.stall := rfl
@[simp] theorem setChan_cores (c : Chan) (v : VCh) : (s.setChan c v).cores = s.cores := rfl
@[simp] theorem setChan_flights (c : Chan) (v : VCh) : (s.setChan c v).flights = s.flights := rfl
@[simp] theorem setChan_raised (c : Chan) (v : VCh) : (s.setChan c v).raised = s.raised := rfl
@[simp] theorem setChan_errNow (c : Chan) (v : VCh) : (s.setChan c v).errNow = s.errNow := rfl
@[simp] theorem setChan_w1c (c : Chan) (v : VCh) : (s.setChan c v).w1c = s.w1c := rfl
@[simp] theorem setChan_qps (c : Chan) (v : VCh) : (s.setChan c v).qps = s.qps := rfl
@[simp] theorem setChan_ports (c : Chan) (v : VCh) : (s.setChan c v).ports = s.ports := rfl
@[simp] theorem setChan_cmds (c : Chan) (v : VCh) : (s.setChan c v).cmds = s.cmds := rfl
@[simp] theorem setChan_rdreqs (c : Chan) (v : VCh) : (s.setChan c v).rdreqs = s.rdreqs := rfl
@[simp] theorem setChan_nextReq (c : Chan) (v : VCh) : (s.setChan c v).nextReq = s.nextReq := rfl
@[simp] theorem setChan_bbr (c : Chan) (v : VCh) : (s.setChan c v).bbr = s.bbr := rfl
@[simp] theorem setChan_mgmt (c : Chan) (v : VCh) : (s.setChan c v).mgmt = s.mgmt := rfl
@[simp] theorem setChan_life (c : Chan) (v : VCh) : (s.setChan c v).life = s.life := rfl
@[simp] theorem setChan_hq (c : Chan) (v : VCh) : (s.setChan c v).hq = s.hq := rfl
@[simp] theorem setChan_wvl (c : Chan) (v : VCh) : (s.setChan c v).wvl = s.wvl := rfl
@[simp] theorem setChan_sae (c : Chan) (v : VCh) : (s.setChan c v).sae = s.sae := rfl
@[simp] theorem setChan_kvExh (c : Chan) (v : VCh) : (s.setChan c v).kvExh = s.kvExh := rfl
@[simp] theorem setChan_kvMask (c : Chan) (v : VCh) : (s.setChan c v).kvMask = s.kvMask := rfl
@[simp] theorem setChan_kvEmpty (c : Chan) (v : VCh) : (s.setChan c v).kvEmpty = s.kvEmpty := rfl
@[simp] theorem setChan_sch (c : Chan) (v : VCh) : (s.setChan c v).sch = s.sch := rfl
@[simp] theorem setChan_stk (c : Chan) (v : VCh) : (s.setChan c v).stk = s.stk := rfl
@[simp] theorem setChan_itl (c : Chan) (v : VCh) : (s.setChan c v).itl = s.itl := rfl
@[simp] theorem setChan_sports (c : Chan) (v : VCh) : (s.setChan c v).sports = s.sports := rfl
@[simp] theorem setChan_cic (c : Chan) (v : VCh) : (s.setChan c v).cic = s.cic := rfl
@[simp] theorem setChan_saeLapse (c : Chan) (v : VCh) : (s.setChan c v).saeLapse = s.saeLapse := rfl
@[simp] theorem setChan_refIvl (c : Chan) (v : VCh) : (s.setChan c v).refIvl = s.refIvl := rfl
@[simp] theorem setChan_pow (c : Chan) (v : VCh) : (s.setChan c v).pow = s.pow := rfl
@[simp] theorem setChan_totals (c : Chan) (v : VCh) : (s.setChan c v).totals = s.totals := rfl
@[simp] theorem setChan_undef (c : Chan) (v : VCh) : (s.setChan c v).undef = s.undef := rfl

/-! ### setItl -/

@[simp] theorem setItl_pending (m : Nat) (v : Itl) : (s.setItl m v).pending = s.pending := rfl
@[simp] theorem setItl_cc (m : Nat) (v : Itl) : (s.setItl m v).cc = s.cc := rfl
@[simp] theorem setItl_free (m : Nat) (v : Itl) : (s.setItl m v).free = s.free := rfl
@[simp] theorem setItl_regs (m : Nat) (v : Itl) : (s.setItl m v).regs = s.regs := rfl
@[simp] theorem setItl_mem (m : Nat) (v : Itl) : (s.setItl m v).mem = s.mem := rfl
@[simp] theorem setItl_syn (m : Nat) (v : Itl) : (s.setItl m v).syn = s.syn := rfl
@[simp] theorem setItl_gpois (m : Nat) (v : Itl) : (s.setItl m v).gpois = s.gpois := rfl
@[simp] theorem setItl_str (m : Nat) (v : Itl) : (s.setItl m v).str = s.str := rfl
@[simp] theorem setItl_stall (m : Nat) (v : Itl) : (s.setItl m v).stall = s.stall := rfl
@[simp] theorem setItl_cores (m : Nat) (v : Itl) : (s.setItl m v).cores = s.cores := rfl
@[simp] theorem setItl_vch (m : Nat) (v : Itl) : (s.setItl m v).vch = s.vch := rfl
@[simp] theorem setItl_flights (m : Nat) (v : Itl) : (s.setItl m v).flights = s.flights := rfl
@[simp] theorem setItl_raised (m : Nat) (v : Itl) : (s.setItl m v).raised = s.raised := rfl
@[simp] theorem setItl_errNow (m : Nat) (v : Itl) : (s.setItl m v).errNow = s.errNow := rfl
@[simp] theorem setItl_w1c (m : Nat) (v : Itl) : (s.setItl m v).w1c = s.w1c := rfl
@[simp] theorem setItl_qps (m : Nat) (v : Itl) : (s.setItl m v).qps = s.qps := rfl
@[simp] theorem setItl_ports (m : Nat) (v : Itl) : (s.setItl m v).ports = s.ports := rfl
@[simp] theorem setItl_cmds (m : Nat) (v : Itl) : (s.setItl m v).cmds = s.cmds := rfl
@[simp] theorem setItl_rdreqs (m : Nat) (v : Itl) : (s.setItl m v).rdreqs = s.rdreqs := rfl
@[simp] theorem setItl_nextReq (m : Nat) (v : Itl) : (s.setItl m v).nextReq = s.nextReq := rfl
@[simp] theorem setItl_bbr (m : Nat) (v : Itl) : (s.setItl m v).bbr = s.bbr := rfl
@[simp] theorem setItl_mgmt (m : Nat) (v : Itl) : (s.setItl m v).mgmt = s.mgmt := rfl
@[simp] theorem setItl_life (m : Nat) (v : Itl) : (s.setItl m v).life = s.life := rfl
@[simp] theorem setItl_hq (m : Nat) (v : Itl) : (s.setItl m v).hq = s.hq := rfl
@[simp] theorem setItl_wvl (m : Nat) (v : Itl) : (s.setItl m v).wvl = s.wvl := rfl
@[simp] theorem setItl_sae (m : Nat) (v : Itl) : (s.setItl m v).sae = s.sae := rfl
@[simp] theorem setItl_kvExh (m : Nat) (v : Itl) : (s.setItl m v).kvExh = s.kvExh := rfl
@[simp] theorem setItl_kvMask (m : Nat) (v : Itl) : (s.setItl m v).kvMask = s.kvMask := rfl
@[simp] theorem setItl_kvEmpty (m : Nat) (v : Itl) : (s.setItl m v).kvEmpty = s.kvEmpty := rfl
@[simp] theorem setItl_sch (m : Nat) (v : Itl) : (s.setItl m v).sch = s.sch := rfl
@[simp] theorem setItl_stk (m : Nat) (v : Itl) : (s.setItl m v).stk = s.stk := rfl
@[simp] theorem setItl_sports (m : Nat) (v : Itl) : (s.setItl m v).sports = s.sports := rfl
@[simp] theorem setItl_cic (m : Nat) (v : Itl) : (s.setItl m v).cic = s.cic := rfl
@[simp] theorem setItl_saeLapse (m : Nat) (v : Itl) : (s.setItl m v).saeLapse = s.saeLapse := rfl
@[simp] theorem setItl_refIvl (m : Nat) (v : Itl) : (s.setItl m v).refIvl = s.refIvl := rfl
@[simp] theorem setItl_pow (m : Nat) (v : Itl) : (s.setItl m v).pow = s.pow := rfl
@[simp] theorem setItl_totals (m : Nat) (v : Itl) : (s.setItl m v).totals = s.totals := rfl
@[simp] theorem setItl_undef (m : Nat) (v : Itl) : (s.setItl m v).undef = s.undef := rfl

/-! ### setDir -/

@[simp] theorem setDir_pending (m d : Nat) (v : ItlDir) : (s.setDir m d v).pending = s.pending := rfl
@[simp] theorem setDir_cc (m d : Nat) (v : ItlDir) : (s.setDir m d v).cc = s.cc := rfl
@[simp] theorem setDir_free (m d : Nat) (v : ItlDir) : (s.setDir m d v).free = s.free := rfl
@[simp] theorem setDir_regs (m d : Nat) (v : ItlDir) : (s.setDir m d v).regs = s.regs := rfl
@[simp] theorem setDir_mem (m d : Nat) (v : ItlDir) : (s.setDir m d v).mem = s.mem := rfl
@[simp] theorem setDir_syn (m d : Nat) (v : ItlDir) : (s.setDir m d v).syn = s.syn := rfl
@[simp] theorem setDir_gpois (m d : Nat) (v : ItlDir) : (s.setDir m d v).gpois = s.gpois := rfl
@[simp] theorem setDir_str (m d : Nat) (v : ItlDir) : (s.setDir m d v).str = s.str := rfl
@[simp] theorem setDir_stall (m d : Nat) (v : ItlDir) : (s.setDir m d v).stall = s.stall := rfl
@[simp] theorem setDir_cores (m d : Nat) (v : ItlDir) : (s.setDir m d v).cores = s.cores := rfl
@[simp] theorem setDir_vch (m d : Nat) (v : ItlDir) : (s.setDir m d v).vch = s.vch := rfl
@[simp] theorem setDir_flights (m d : Nat) (v : ItlDir) : (s.setDir m d v).flights = s.flights := rfl
@[simp] theorem setDir_raised (m d : Nat) (v : ItlDir) : (s.setDir m d v).raised = s.raised := rfl
@[simp] theorem setDir_errNow (m d : Nat) (v : ItlDir) : (s.setDir m d v).errNow = s.errNow := rfl
@[simp] theorem setDir_w1c (m d : Nat) (v : ItlDir) : (s.setDir m d v).w1c = s.w1c := rfl
@[simp] theorem setDir_qps (m d : Nat) (v : ItlDir) : (s.setDir m d v).qps = s.qps := rfl
@[simp] theorem setDir_ports (m d : Nat) (v : ItlDir) : (s.setDir m d v).ports = s.ports := rfl
@[simp] theorem setDir_cmds (m d : Nat) (v : ItlDir) : (s.setDir m d v).cmds = s.cmds := rfl
@[simp] theorem setDir_rdreqs (m d : Nat) (v : ItlDir) : (s.setDir m d v).rdreqs = s.rdreqs := rfl
@[simp] theorem setDir_nextReq (m d : Nat) (v : ItlDir) : (s.setDir m d v).nextReq = s.nextReq := rfl
@[simp] theorem setDir_bbr (m d : Nat) (v : ItlDir) : (s.setDir m d v).bbr = s.bbr := rfl
@[simp] theorem setDir_mgmt (m d : Nat) (v : ItlDir) : (s.setDir m d v).mgmt = s.mgmt := rfl
@[simp] theorem setDir_life (m d : Nat) (v : ItlDir) : (s.setDir m d v).life = s.life := rfl
@[simp] theorem setDir_hq (m d : Nat) (v : ItlDir) : (s.setDir m d v).hq = s.hq := rfl
@[simp] theorem setDir_wvl (m d : Nat) (v : ItlDir) : (s.setDir m d v).wvl = s.wvl := rfl
@[simp] theorem setDir_sae (m d : Nat) (v : ItlDir) : (s.setDir m d v).sae = s.sae := rfl
@[simp] theorem setDir_kvExh (m d : Nat) (v : ItlDir) : (s.setDir m d v).kvExh = s.kvExh := rfl
@[simp] theorem setDir_kvMask (m d : Nat) (v : ItlDir) : (s.setDir m d v).kvMask = s.kvMask := rfl
@[simp] theorem setDir_kvEmpty (m d : Nat) (v : ItlDir) : (s.setDir m d v).kvEmpty = s.kvEmpty := rfl
@[simp] theorem setDir_sch (m d : Nat) (v : ItlDir) : (s.setDir m d v).sch = s.sch := rfl
@[simp] theorem setDir_stk (m d : Nat) (v : ItlDir) : (s.setDir m d v).stk = s.stk := rfl
@[simp] theorem setDir_sports (m d : Nat) (v : ItlDir) : (s.setDir m d v).sports = s.sports := rfl
@[simp] theorem setDir_cic (m d : Nat) (v : ItlDir) : (s.setDir m d v).cic = s.cic := rfl
@[simp] theorem setDir_saeLapse (m d : Nat) (v : ItlDir) : (s.setDir m d v).saeLapse = s.saeLapse := rfl
@[simp] theorem setDir_refIvl (m d : Nat) (v : ItlDir) : (s.setDir m d v).refIvl = s.refIvl := rfl
@[simp] theorem setDir_pow (m d : Nat) (v : ItlDir) : (s.setDir m d v).pow = s.pow := rfl
@[simp] theorem setDir_totals (m d : Nat) (v : ItlDir) : (s.setDir m d v).totals = s.totals := rfl
@[simp] theorem setDir_undef (m d : Nat) (v : ItlDir) : (s.setDir m d v).undef = s.undef := rfl

/-! ### setSae -/

@[simp] theorem setSae_pending (n : Nat) (v : Sae) : (s.setSae n v).pending = s.pending := rfl
@[simp] theorem setSae_cc (n : Nat) (v : Sae) : (s.setSae n v).cc = s.cc := rfl
@[simp] theorem setSae_free (n : Nat) (v : Sae) : (s.setSae n v).free = s.free := rfl
@[simp] theorem setSae_regs (n : Nat) (v : Sae) : (s.setSae n v).regs = s.regs := rfl
@[simp] theorem setSae_mem (n : Nat) (v : Sae) : (s.setSae n v).mem = s.mem := rfl
@[simp] theorem setSae_syn (n : Nat) (v : Sae) : (s.setSae n v).syn = s.syn := rfl
@[simp] theorem setSae_gpois (n : Nat) (v : Sae) : (s.setSae n v).gpois = s.gpois := rfl
@[simp] theorem setSae_str (n : Nat) (v : Sae) : (s.setSae n v).str = s.str := rfl
@[simp] theorem setSae_stall (n : Nat) (v : Sae) : (s.setSae n v).stall = s.stall := rfl
@[simp] theorem setSae_cores (n : Nat) (v : Sae) : (s.setSae n v).cores = s.cores := rfl
@[simp] theorem setSae_vch (n : Nat) (v : Sae) : (s.setSae n v).vch = s.vch := rfl
@[simp] theorem setSae_flights (n : Nat) (v : Sae) : (s.setSae n v).flights = s.flights := rfl
@[simp] theorem setSae_raised (n : Nat) (v : Sae) : (s.setSae n v).raised = s.raised := rfl
@[simp] theorem setSae_errNow (n : Nat) (v : Sae) : (s.setSae n v).errNow = s.errNow := rfl
@[simp] theorem setSae_w1c (n : Nat) (v : Sae) : (s.setSae n v).w1c = s.w1c := rfl
@[simp] theorem setSae_qps (n : Nat) (v : Sae) : (s.setSae n v).qps = s.qps := rfl
@[simp] theorem setSae_ports (n : Nat) (v : Sae) : (s.setSae n v).ports = s.ports := rfl
@[simp] theorem setSae_cmds (n : Nat) (v : Sae) : (s.setSae n v).cmds = s.cmds := rfl
@[simp] theorem setSae_rdreqs (n : Nat) (v : Sae) : (s.setSae n v).rdreqs = s.rdreqs := rfl
@[simp] theorem setSae_nextReq (n : Nat) (v : Sae) : (s.setSae n v).nextReq = s.nextReq := rfl
@[simp] theorem setSae_bbr (n : Nat) (v : Sae) : (s.setSae n v).bbr = s.bbr := rfl
@[simp] theorem setSae_mgmt (n : Nat) (v : Sae) : (s.setSae n v).mgmt = s.mgmt := rfl
@[simp] theorem setSae_life (n : Nat) (v : Sae) : (s.setSae n v).life = s.life := rfl
@[simp] theorem setSae_hq (n : Nat) (v : Sae) : (s.setSae n v).hq = s.hq := rfl
@[simp] theorem setSae_wvl (n : Nat) (v : Sae) : (s.setSae n v).wvl = s.wvl := rfl
@[simp] theorem setSae_kvExh (n : Nat) (v : Sae) : (s.setSae n v).kvExh = s.kvExh := rfl
@[simp] theorem setSae_kvMask (n : Nat) (v : Sae) : (s.setSae n v).kvMask = s.kvMask := rfl
@[simp] theorem setSae_kvEmpty (n : Nat) (v : Sae) : (s.setSae n v).kvEmpty = s.kvEmpty := rfl
@[simp] theorem setSae_sch (n : Nat) (v : Sae) : (s.setSae n v).sch = s.sch := rfl
@[simp] theorem setSae_stk (n : Nat) (v : Sae) : (s.setSae n v).stk = s.stk := rfl
@[simp] theorem setSae_itl (n : Nat) (v : Sae) : (s.setSae n v).itl = s.itl := rfl
@[simp] theorem setSae_sports (n : Nat) (v : Sae) : (s.setSae n v).sports = s.sports := rfl
@[simp] theorem setSae_cic (n : Nat) (v : Sae) : (s.setSae n v).cic = s.cic := rfl
@[simp] theorem setSae_saeLapse (n : Nat) (v : Sae) : (s.setSae n v).saeLapse = s.saeLapse := rfl
@[simp] theorem setSae_refIvl (n : Nat) (v : Sae) : (s.setSae n v).refIvl = s.refIvl := rfl
@[simp] theorem setSae_pow (n : Nat) (v : Sae) : (s.setSae n v).pow = s.pow := rfl
@[simp] theorem setSae_totals (n : Nat) (v : Sae) : (s.setSae n v).totals = s.totals := rfl
@[simp] theorem setSae_undef (n : Nat) (v : Sae) : (s.setSae n v).undef = s.undef := rfl

/-! ### setSc -/

@[simp] theorem setSc_pending (k c : Nat) (v : SChan) : (s.setSc k c v).pending = s.pending := rfl
@[simp] theorem setSc_cc (k c : Nat) (v : SChan) : (s.setSc k c v).cc = s.cc := rfl
@[simp] theorem setSc_free (k c : Nat) (v : SChan) : (s.setSc k c v).free = s.free := rfl
@[simp] theorem setSc_regs (k c : Nat) (v : SChan) : (s.setSc k c v).regs = s.regs := rfl
@[simp] theorem setSc_mem (k c : Nat) (v : SChan) : (s.setSc k c v).mem = s.mem := rfl
@[simp] theorem setSc_syn (k c : Nat) (v : SChan) : (s.setSc k c v).syn = s.syn := rfl
@[simp] theorem setSc_gpois (k c : Nat) (v : SChan) : (s.setSc k c v).gpois = s.gpois := rfl
@[simp] theorem setSc_str (k c : Nat) (v : SChan) : (s.setSc k c v).str = s.str := rfl
@[simp] theorem setSc_stall (k c : Nat) (v : SChan) : (s.setSc k c v).stall = s.stall := rfl
@[simp] theorem setSc_cores (k c : Nat) (v : SChan) : (s.setSc k c v).cores = s.cores := rfl
@[simp] theorem setSc_vch (k c : Nat) (v : SChan) : (s.setSc k c v).vch = s.vch := rfl
@[simp] theorem setSc_flights (k c : Nat) (v : SChan) : (s.setSc k c v).flights = s.flights := rfl
@[simp] theorem setSc_raised (k c : Nat) (v : SChan) : (s.setSc k c v).raised = s.raised := rfl
@[simp] theorem setSc_errNow (k c : Nat) (v : SChan) : (s.setSc k c v).errNow = s.errNow := rfl
@[simp] theorem setSc_w1c (k c : Nat) (v : SChan) : (s.setSc k c v).w1c = s.w1c := rfl
@[simp] theorem setSc_qps (k c : Nat) (v : SChan) : (s.setSc k c v).qps = s.qps := rfl
@[simp] theorem setSc_ports (k c : Nat) (v : SChan) : (s.setSc k c v).ports = s.ports := rfl
@[simp] theorem setSc_cmds (k c : Nat) (v : SChan) : (s.setSc k c v).cmds = s.cmds := rfl
@[simp] theorem setSc_rdreqs (k c : Nat) (v : SChan) : (s.setSc k c v).rdreqs = s.rdreqs := rfl
@[simp] theorem setSc_nextReq (k c : Nat) (v : SChan) : (s.setSc k c v).nextReq = s.nextReq := rfl
@[simp] theorem setSc_bbr (k c : Nat) (v : SChan) : (s.setSc k c v).bbr = s.bbr := rfl
@[simp] theorem setSc_mgmt (k c : Nat) (v : SChan) : (s.setSc k c v).mgmt = s.mgmt := rfl
@[simp] theorem setSc_life (k c : Nat) (v : SChan) : (s.setSc k c v).life = s.life := rfl
@[simp] theorem setSc_hq (k c : Nat) (v : SChan) : (s.setSc k c v).hq = s.hq := rfl
@[simp] theorem setSc_wvl (k c : Nat) (v : SChan) : (s.setSc k c v).wvl = s.wvl := rfl
@[simp] theorem setSc_sae (k c : Nat) (v : SChan) : (s.setSc k c v).sae = s.sae := rfl
@[simp] theorem setSc_kvExh (k c : Nat) (v : SChan) : (s.setSc k c v).kvExh = s.kvExh := rfl
@[simp] theorem setSc_kvMask (k c : Nat) (v : SChan) : (s.setSc k c v).kvMask = s.kvMask := rfl
@[simp] theorem setSc_kvEmpty (k c : Nat) (v : SChan) : (s.setSc k c v).kvEmpty = s.kvEmpty := rfl
@[simp] theorem setSc_stk (k c : Nat) (v : SChan) : (s.setSc k c v).stk = s.stk := rfl
@[simp] theorem setSc_itl (k c : Nat) (v : SChan) : (s.setSc k c v).itl = s.itl := rfl
@[simp] theorem setSc_sports (k c : Nat) (v : SChan) : (s.setSc k c v).sports = s.sports := rfl
@[simp] theorem setSc_cic (k c : Nat) (v : SChan) : (s.setSc k c v).cic = s.cic := rfl
@[simp] theorem setSc_saeLapse (k c : Nat) (v : SChan) : (s.setSc k c v).saeLapse = s.saeLapse := rfl
@[simp] theorem setSc_refIvl (k c : Nat) (v : SChan) : (s.setSc k c v).refIvl = s.refIvl := rfl
@[simp] theorem setSc_pow (k c : Nat) (v : SChan) : (s.setSc k c v).pow = s.pow := rfl
@[simp] theorem setSc_totals (k c : Nat) (v : SChan) : (s.setSc k c v).totals = s.totals := rfl
@[simp] theorem setSc_undef (k c : Nat) (v : SChan) : (s.setSc k c v).undef = s.undef := rfl

/-! ### setStk -/

@[simp] theorem setStk_pending (k : Nat) (v : Stk) : (s.setStk k v).pending = s.pending := rfl
@[simp] theorem setStk_cc (k : Nat) (v : Stk) : (s.setStk k v).cc = s.cc := rfl
@[simp] theorem setStk_free (k : Nat) (v : Stk) : (s.setStk k v).free = s.free := rfl
@[simp] theorem setStk_regs (k : Nat) (v : Stk) : (s.setStk k v).regs = s.regs := rfl
@[simp] theorem setStk_mem (k : Nat) (v : Stk) : (s.setStk k v).mem = s.mem := rfl
@[simp] theorem setStk_syn (k : Nat) (v : Stk) : (s.setStk k v).syn = s.syn := rfl
@[simp] theorem setStk_gpois (k : Nat) (v : Stk) : (s.setStk k v).gpois = s.gpois := rfl
@[simp] theorem setStk_str (k : Nat) (v : Stk) : (s.setStk k v).str = s.str := rfl
@[simp] theorem setStk_stall (k : Nat) (v : Stk) : (s.setStk k v).stall = s.stall := rfl
@[simp] theorem setStk_cores (k : Nat) (v : Stk) : (s.setStk k v).cores = s.cores := rfl
@[simp] theorem setStk_vch (k : Nat) (v : Stk) : (s.setStk k v).vch = s.vch := rfl
@[simp] theorem setStk_flights (k : Nat) (v : Stk) : (s.setStk k v).flights = s.flights := rfl
@[simp] theorem setStk_raised (k : Nat) (v : Stk) : (s.setStk k v).raised = s.raised := rfl
@[simp] theorem setStk_errNow (k : Nat) (v : Stk) : (s.setStk k v).errNow = s.errNow := rfl
@[simp] theorem setStk_w1c (k : Nat) (v : Stk) : (s.setStk k v).w1c = s.w1c := rfl
@[simp] theorem setStk_qps (k : Nat) (v : Stk) : (s.setStk k v).qps = s.qps := rfl
@[simp] theorem setStk_ports (k : Nat) (v : Stk) : (s.setStk k v).ports = s.ports := rfl
@[simp] theorem setStk_cmds (k : Nat) (v : Stk) : (s.setStk k v).cmds = s.cmds := rfl
@[simp] theorem setStk_rdreqs (k : Nat) (v : Stk) : (s.setStk k v).rdreqs = s.rdreqs := rfl
@[simp] theorem setStk_nextReq (k : Nat) (v : Stk) : (s.setStk k v).nextReq = s.nextReq := rfl
@[simp] theorem setStk_bbr (k : Nat) (v : Stk) : (s.setStk k v).bbr = s.bbr := rfl
@[simp] theorem setStk_mgmt (k : Nat) (v : Stk) : (s.setStk k v).mgmt = s.mgmt := rfl
@[simp] theorem setStk_life (k : Nat) (v : Stk) : (s.setStk k v).life = s.life := rfl
@[simp] theorem setStk_hq (k : Nat) (v : Stk) : (s.setStk k v).hq = s.hq := rfl
@[simp] theorem setStk_wvl (k : Nat) (v : Stk) : (s.setStk k v).wvl = s.wvl := rfl
@[simp] theorem setStk_sae (k : Nat) (v : Stk) : (s.setStk k v).sae = s.sae := rfl
@[simp] theorem setStk_kvExh (k : Nat) (v : Stk) : (s.setStk k v).kvExh = s.kvExh := rfl
@[simp] theorem setStk_kvMask (k : Nat) (v : Stk) : (s.setStk k v).kvMask = s.kvMask := rfl
@[simp] theorem setStk_kvEmpty (k : Nat) (v : Stk) : (s.setStk k v).kvEmpty = s.kvEmpty := rfl
@[simp] theorem setStk_sch (k : Nat) (v : Stk) : (s.setStk k v).sch = s.sch := rfl
@[simp] theorem setStk_itl (k : Nat) (v : Stk) : (s.setStk k v).itl = s.itl := rfl
@[simp] theorem setStk_sports (k : Nat) (v : Stk) : (s.setStk k v).sports = s.sports := rfl
@[simp] theorem setStk_cic (k : Nat) (v : Stk) : (s.setStk k v).cic = s.cic := rfl
@[simp] theorem setStk_saeLapse (k : Nat) (v : Stk) : (s.setStk k v).saeLapse = s.saeLapse := rfl
@[simp] theorem setStk_refIvl (k : Nat) (v : Stk) : (s.setStk k v).refIvl = s.refIvl := rfl
@[simp] theorem setStk_pow (k : Nat) (v : Stk) : (s.setStk k v).pow = s.pow := rfl
@[simp] theorem setStk_totals (k : Nat) (v : Stk) : (s.setStk k v).totals = s.totals := rfl
@[simp] theorem setStk_undef (k : Nat) (v : Stk) : (s.setStk k v).undef = s.undef := rfl

/-! ### setWv -/

@[simp] theorem setWv_pending (k : Nat) (v : Wvl) : (s.setWv k v).pending = s.pending := rfl
@[simp] theorem setWv_cc (k : Nat) (v : Wvl) : (s.setWv k v).cc = s.cc := rfl
@[simp] theorem setWv_free (k : Nat) (v : Wvl) : (s.setWv k v).free = s.free := rfl
@[simp] theorem setWv_regs (k : Nat) (v : Wvl) : (s.setWv k v).regs = s.regs := rfl
@[simp] theorem setWv_mem (k : Nat) (v : Wvl) : (s.setWv k v).mem = s.mem := rfl
@[simp] theorem setWv_syn (k : Nat) (v : Wvl) : (s.setWv k v).syn = s.syn := rfl
@[simp] theorem setWv_gpois (k : Nat) (v : Wvl) : (s.setWv k v).gpois = s.gpois := rfl
@[simp] theorem setWv_str (k : Nat) (v : Wvl) : (s.setWv k v).str = s.str := rfl
@[simp] theorem setWv_stall (k : Nat) (v : Wvl) : (s.setWv k v).stall = s.stall := rfl
@[simp] theorem setWv_cores (k : Nat) (v : Wvl) : (s.setWv k v).cores = s.cores := rfl
@[simp] theorem setWv_vch (k : Nat) (v : Wvl) : (s.setWv k v).vch = s.vch := rfl
@[simp] theorem setWv_flights (k : Nat) (v : Wvl) : (s.setWv k v).flights = s.flights := rfl
@[simp] theorem setWv_raised (k : Nat) (v : Wvl) : (s.setWv k v).raised = s.raised := rfl
@[simp] theorem setWv_errNow (k : Nat) (v : Wvl) : (s.setWv k v).errNow = s.errNow := rfl
@[simp] theorem setWv_w1c (k : Nat) (v : Wvl) : (s.setWv k v).w1c = s.w1c := rfl
@[simp] theorem setWv_qps (k : Nat) (v : Wvl) : (s.setWv k v).qps = s.qps := rfl
@[simp] theorem setWv_ports (k : Nat) (v : Wvl) : (s.setWv k v).ports = s.ports := rfl
@[simp] theorem setWv_cmds (k : Nat) (v : Wvl) : (s.setWv k v).cmds = s.cmds := rfl
@[simp] theorem setWv_rdreqs (k : Nat) (v : Wvl) : (s.setWv k v).rdreqs = s.rdreqs := rfl
@[simp] theorem setWv_nextReq (k : Nat) (v : Wvl) : (s.setWv k v).nextReq = s.nextReq := rfl
@[simp] theorem setWv_bbr (k : Nat) (v : Wvl) : (s.setWv k v).bbr = s.bbr := rfl
@[simp] theorem setWv_mgmt (k : Nat) (v : Wvl) : (s.setWv k v).mgmt = s.mgmt := rfl
@[simp] theorem setWv_life (k : Nat) (v : Wvl) : (s.setWv k v).life = s.life := rfl
@[simp] theorem setWv_hq (k : Nat) (v : Wvl) : (s.setWv k v).hq = s.hq := rfl
@[simp] theorem setWv_sae (k : Nat) (v : Wvl) : (s.setWv k v).sae = s.sae := rfl
@[simp] theorem setWv_kvExh (k : Nat) (v : Wvl) : (s.setWv k v).kvExh = s.kvExh := rfl
@[simp] theorem setWv_kvMask (k : Nat) (v : Wvl) : (s.setWv k v).kvMask = s.kvMask := rfl
@[simp] theorem setWv_kvEmpty (k : Nat) (v : Wvl) : (s.setWv k v).kvEmpty = s.kvEmpty := rfl
@[simp] theorem setWv_sch (k : Nat) (v : Wvl) : (s.setWv k v).sch = s.sch := rfl
@[simp] theorem setWv_stk (k : Nat) (v : Wvl) : (s.setWv k v).stk = s.stk := rfl
@[simp] theorem setWv_itl (k : Nat) (v : Wvl) : (s.setWv k v).itl = s.itl := rfl
@[simp] theorem setWv_sports (k : Nat) (v : Wvl) : (s.setWv k v).sports = s.sports := rfl
@[simp] theorem setWv_cic (k : Nat) (v : Wvl) : (s.setWv k v).cic = s.cic := rfl
@[simp] theorem setWv_saeLapse (k : Nat) (v : Wvl) : (s.setWv k v).saeLapse = s.saeLapse := rfl
@[simp] theorem setWv_refIvl (k : Nat) (v : Wvl) : (s.setWv k v).refIvl = s.refIvl := rfl
@[simp] theorem setWv_pow (k : Nat) (v : Wvl) : (s.setWv k v).pow = s.pow := rfl
@[simp] theorem setWv_totals (k : Nat) (v : Wvl) : (s.setWv k v).totals = s.totals := rfl
@[simp] theorem setWv_undef (k : Nat) (v : Wvl) : (s.setWv k v).undef = s.undef := rfl

/-! ### setWch -/

@[simp] theorem setWch_pending (k ch : Nat) (c : WCh) : (s.setWch k ch c).pending = s.pending := rfl
@[simp] theorem setWch_cc (k ch : Nat) (c : WCh) : (s.setWch k ch c).cc = s.cc := rfl
@[simp] theorem setWch_free (k ch : Nat) (c : WCh) : (s.setWch k ch c).free = s.free := rfl
@[simp] theorem setWch_regs (k ch : Nat) (c : WCh) : (s.setWch k ch c).regs = s.regs := rfl
@[simp] theorem setWch_mem (k ch : Nat) (c : WCh) : (s.setWch k ch c).mem = s.mem := rfl
@[simp] theorem setWch_syn (k ch : Nat) (c : WCh) : (s.setWch k ch c).syn = s.syn := rfl
@[simp] theorem setWch_gpois (k ch : Nat) (c : WCh) : (s.setWch k ch c).gpois = s.gpois := rfl
@[simp] theorem setWch_str (k ch : Nat) (c : WCh) : (s.setWch k ch c).str = s.str := rfl
@[simp] theorem setWch_stall (k ch : Nat) (c : WCh) : (s.setWch k ch c).stall = s.stall := rfl
@[simp] theorem setWch_cores (k ch : Nat) (c : WCh) : (s.setWch k ch c).cores = s.cores := rfl
@[simp] theorem setWch_vch (k ch : Nat) (c : WCh) : (s.setWch k ch c).vch = s.vch := rfl
@[simp] theorem setWch_flights (k ch : Nat) (c : WCh) : (s.setWch k ch c).flights = s.flights := rfl
@[simp] theorem setWch_raised (k ch : Nat) (c : WCh) : (s.setWch k ch c).raised = s.raised := rfl
@[simp] theorem setWch_errNow (k ch : Nat) (c : WCh) : (s.setWch k ch c).errNow = s.errNow := rfl
@[simp] theorem setWch_w1c (k ch : Nat) (c : WCh) : (s.setWch k ch c).w1c = s.w1c := rfl
@[simp] theorem setWch_qps (k ch : Nat) (c : WCh) : (s.setWch k ch c).qps = s.qps := rfl
@[simp] theorem setWch_ports (k ch : Nat) (c : WCh) : (s.setWch k ch c).ports = s.ports := rfl
@[simp] theorem setWch_cmds (k ch : Nat) (c : WCh) : (s.setWch k ch c).cmds = s.cmds := rfl
@[simp] theorem setWch_rdreqs (k ch : Nat) (c : WCh) : (s.setWch k ch c).rdreqs = s.rdreqs := rfl
@[simp] theorem setWch_nextReq (k ch : Nat) (c : WCh) : (s.setWch k ch c).nextReq = s.nextReq := rfl
@[simp] theorem setWch_bbr (k ch : Nat) (c : WCh) : (s.setWch k ch c).bbr = s.bbr := rfl
@[simp] theorem setWch_mgmt (k ch : Nat) (c : WCh) : (s.setWch k ch c).mgmt = s.mgmt := rfl
@[simp] theorem setWch_life (k ch : Nat) (c : WCh) : (s.setWch k ch c).life = s.life := rfl
@[simp] theorem setWch_hq (k ch : Nat) (c : WCh) : (s.setWch k ch c).hq = s.hq := rfl
@[simp] theorem setWch_sae (k ch : Nat) (c : WCh) : (s.setWch k ch c).sae = s.sae := rfl
@[simp] theorem setWch_kvExh (k ch : Nat) (c : WCh) : (s.setWch k ch c).kvExh = s.kvExh := rfl
@[simp] theorem setWch_kvMask (k ch : Nat) (c : WCh) : (s.setWch k ch c).kvMask = s.kvMask := rfl
@[simp] theorem setWch_kvEmpty (k ch : Nat) (c : WCh) : (s.setWch k ch c).kvEmpty = s.kvEmpty := rfl
@[simp] theorem setWch_sch (k ch : Nat) (c : WCh) : (s.setWch k ch c).sch = s.sch := rfl
@[simp] theorem setWch_stk (k ch : Nat) (c : WCh) : (s.setWch k ch c).stk = s.stk := rfl
@[simp] theorem setWch_itl (k ch : Nat) (c : WCh) : (s.setWch k ch c).itl = s.itl := rfl
@[simp] theorem setWch_sports (k ch : Nat) (c : WCh) : (s.setWch k ch c).sports = s.sports := rfl
@[simp] theorem setWch_cic (k ch : Nat) (c : WCh) : (s.setWch k ch c).cic = s.cic := rfl
@[simp] theorem setWch_saeLapse (k ch : Nat) (c : WCh) : (s.setWch k ch c).saeLapse = s.saeLapse := rfl
@[simp] theorem setWch_refIvl (k ch : Nat) (c : WCh) : (s.setWch k ch c).refIvl = s.refIvl := rfl
@[simp] theorem setWch_pow (k ch : Nat) (c : WCh) : (s.setWch k ch c).pow = s.pow := rfl
@[simp] theorem setWch_totals (k ch : Nat) (c : WCh) : (s.setWch k ch c).totals = s.totals := rfl
@[simp] theorem setWch_undef (k ch : Nat) (c : WCh) : (s.setWch k ch c).undef = s.undef := rfl

/-! ### setBbrDev -/

@[simp] theorem setBbrDev_pending (b : Bool) (d : BbrDev) : (s.setBbrDev b d).pending = s.pending := rfl
@[simp] theorem setBbrDev_cc (b : Bool) (d : BbrDev) : (s.setBbrDev b d).cc = s.cc := rfl
@[simp] theorem setBbrDev_free (b : Bool) (d : BbrDev) : (s.setBbrDev b d).free = s.free := rfl
@[simp] theorem setBbrDev_regs (b : Bool) (d : BbrDev) : (s.setBbrDev b d).regs = s.regs := rfl
@[simp] theorem setBbrDev_mem (b : Bool) (d : BbrDev) : (s.setBbrDev b d).mem = s.mem := rfl
@[simp] theorem setBbrDev_syn (b : Bool) (d : BbrDev) : (s.setBbrDev b d).syn = s.syn := rfl
@[simp] theorem setBbrDev_gpois (b : Bool) (d : BbrDev) : (s.setBbrDev b d).gpois = s.gpois := rfl
@[simp] theorem setBbrDev_str (b : Bool) (d : BbrDev) : (s.setBbrDev b d).str = s.str := rfl
@[simp] theorem setBbrDev_stall (b : Bool) (d : BbrDev) : (s.setBbrDev b d).stall = s.stall := rfl
@[simp] theorem setBbrDev_cores (b : Bool) (d : BbrDev) : (s.setBbrDev b d).cores = s.cores := rfl
@[simp] theorem setBbrDev_vch (b : Bool) (d : BbrDev) : (s.setBbrDev b d).vch = s.vch := rfl
@[simp] theorem setBbrDev_flights (b : Bool) (d : BbrDev) : (s.setBbrDev b d).flights = s.flights := rfl
@[simp] theorem setBbrDev_raised (b : Bool) (d : BbrDev) : (s.setBbrDev b d).raised = s.raised := rfl
@[simp] theorem setBbrDev_errNow (b : Bool) (d : BbrDev) : (s.setBbrDev b d).errNow = s.errNow := rfl
@[simp] theorem setBbrDev_w1c (b : Bool) (d : BbrDev) : (s.setBbrDev b d).w1c = s.w1c := rfl
@[simp] theorem setBbrDev_qps (b : Bool) (d : BbrDev) : (s.setBbrDev b d).qps = s.qps := rfl
@[simp] theorem setBbrDev_ports (b : Bool) (d : BbrDev) : (s.setBbrDev b d).ports = s.ports := rfl
@[simp] theorem setBbrDev_cmds (b : Bool) (d : BbrDev) : (s.setBbrDev b d).cmds = s.cmds := rfl
@[simp] theorem setBbrDev_rdreqs (b : Bool) (d : BbrDev) : (s.setBbrDev b d).rdreqs = s.rdreqs := rfl
@[simp] theorem setBbrDev_nextReq (b : Bool) (d : BbrDev) : (s.setBbrDev b d).nextReq = s.nextReq := rfl
@[simp] theorem setBbrDev_mgmt (b : Bool) (d : BbrDev) : (s.setBbrDev b d).mgmt = s.mgmt := rfl
@[simp] theorem setBbrDev_life (b : Bool) (d : BbrDev) : (s.setBbrDev b d).life = s.life := rfl
@[simp] theorem setBbrDev_hq (b : Bool) (d : BbrDev) : (s.setBbrDev b d).hq = s.hq := rfl
@[simp] theorem setBbrDev_wvl (b : Bool) (d : BbrDev) : (s.setBbrDev b d).wvl = s.wvl := rfl
@[simp] theorem setBbrDev_sae (b : Bool) (d : BbrDev) : (s.setBbrDev b d).sae = s.sae := rfl
@[simp] theorem setBbrDev_kvExh (b : Bool) (d : BbrDev) : (s.setBbrDev b d).kvExh = s.kvExh := rfl
@[simp] theorem setBbrDev_kvMask (b : Bool) (d : BbrDev) : (s.setBbrDev b d).kvMask = s.kvMask := rfl
@[simp] theorem setBbrDev_kvEmpty (b : Bool) (d : BbrDev) : (s.setBbrDev b d).kvEmpty = s.kvEmpty := rfl
@[simp] theorem setBbrDev_sch (b : Bool) (d : BbrDev) : (s.setBbrDev b d).sch = s.sch := rfl
@[simp] theorem setBbrDev_stk (b : Bool) (d : BbrDev) : (s.setBbrDev b d).stk = s.stk := rfl
@[simp] theorem setBbrDev_itl (b : Bool) (d : BbrDev) : (s.setBbrDev b d).itl = s.itl := rfl
@[simp] theorem setBbrDev_sports (b : Bool) (d : BbrDev) : (s.setBbrDev b d).sports = s.sports := rfl
@[simp] theorem setBbrDev_cic (b : Bool) (d : BbrDev) : (s.setBbrDev b d).cic = s.cic := rfl
@[simp] theorem setBbrDev_saeLapse (b : Bool) (d : BbrDev) : (s.setBbrDev b d).saeLapse = s.saeLapse := rfl
@[simp] theorem setBbrDev_refIvl (b : Bool) (d : BbrDev) : (s.setBbrDev b d).refIvl = s.refIvl := rfl
@[simp] theorem setBbrDev_pow (b : Bool) (d : BbrDev) : (s.setBbrDev b d).pow = s.pow := rfl
@[simp] theorem setBbrDev_totals (b : Bool) (d : BbrDev) : (s.setBbrDev b d).totals = s.totals := rfl
@[simp] theorem setBbrDev_undef (b : Bool) (d : BbrDev) : (s.setBbrDev b d).undef = s.undef := rfl

/-! ### w1cMark -/

@[simp] theorem w1cMark_pending (r : Reg) (i k b : Nat) : (s.w1cMark r i k b).pending = s.pending := rfl
@[simp] theorem w1cMark_cc (r : Reg) (i k b : Nat) : (s.w1cMark r i k b).cc = s.cc := rfl
@[simp] theorem w1cMark_free (r : Reg) (i k b : Nat) : (s.w1cMark r i k b).free = s.free := rfl
@[simp] theorem w1cMark_regs (r : Reg) (i k b : Nat) : (s.w1cMark r i k b).regs = s.regs := rfl
@[simp] theorem w1cMark_mem (r : Reg) (i k b : Nat) : (s.w1cMark r i k b).mem = s.mem := rfl
@[simp] theorem w1cMark_syn (r : Reg) (i k b : Nat) : (s.w1cMark r i k b).syn = s.syn := rfl
@[simp] theorem w1cMark_gpois (r : Reg) (i k b : Nat) : (s.w1cMark r i k b).gpois = s.gpois := rfl
@[simp] theorem w1cMark_str (r : Reg) (i k b : Nat) : (s.w1cMark r i k b).str = s.str := rfl
@[simp] theorem w1cMark_stall (r : Reg) (i k b : Nat) : (s.w1cMark r i k b).stall = s.stall := rfl
@[simp] theorem w1cMark_cores (r : Reg) (i k b : Nat) : (s.w1cMark r i k b).cores = s.cores := rfl
@[simp] theorem w1cMark_vch (r : Reg) (i k b : Nat) : (s.w1cMark r i k b).vch = s.vch := rfl
@[simp] theorem w1cMark_flights (r : Reg) (i k b : Nat) : (s.w1cMark r i k b).flights = s.flights := rfl
@[simp] theorem w1cMark_raised (r : Reg) (i k b : Nat) : (s.w1cMark r i k b).raised = s.raised := rfl
@[simp] theorem w1cMark_errNow (r : Reg) (i k b : Nat) : (s.w1cMark r i k b).errNow = s.errNow := rfl
@[simp] theorem w1cMark_qps (r : Reg) (i k b : Nat) : (s.w1cMark r i k b).qps = s.qps := rfl
@[simp] theorem w1cMark_ports (r : Reg) (i k b : Nat) : (s.w1cMark r i k b).ports = s.ports := rfl
@[simp] theorem w1cMark_cmds (r : Reg) (i k b : Nat) : (s.w1cMark r i k b).cmds = s.cmds := rfl
@[simp] theorem w1cMark_rdreqs (r : Reg) (i k b : Nat) : (s.w1cMark r i k b).rdreqs = s.rdreqs := rfl
@[simp] theorem w1cMark_nextReq (r : Reg) (i k b : Nat) : (s.w1cMark r i k b).nextReq = s.nextReq := rfl
@[simp] theorem w1cMark_bbr (r : Reg) (i k b : Nat) : (s.w1cMark r i k b).bbr = s.bbr := rfl
@[simp] theorem w1cMark_mgmt (r : Reg) (i k b : Nat) : (s.w1cMark r i k b).mgmt = s.mgmt := rfl
@[simp] theorem w1cMark_life (r : Reg) (i k b : Nat) : (s.w1cMark r i k b).life = s.life := rfl
@[simp] theorem w1cMark_hq (r : Reg) (i k b : Nat) : (s.w1cMark r i k b).hq = s.hq := rfl
@[simp] theorem w1cMark_wvl (r : Reg) (i k b : Nat) : (s.w1cMark r i k b).wvl = s.wvl := rfl
@[simp] theorem w1cMark_sae (r : Reg) (i k b : Nat) : (s.w1cMark r i k b).sae = s.sae := rfl
@[simp] theorem w1cMark_kvExh (r : Reg) (i k b : Nat) : (s.w1cMark r i k b).kvExh = s.kvExh := rfl
@[simp] theorem w1cMark_kvMask (r : Reg) (i k b : Nat) : (s.w1cMark r i k b).kvMask = s.kvMask := rfl
@[simp] theorem w1cMark_kvEmpty (r : Reg) (i k b : Nat) : (s.w1cMark r i k b).kvEmpty = s.kvEmpty := rfl
@[simp] theorem w1cMark_sch (r : Reg) (i k b : Nat) : (s.w1cMark r i k b).sch = s.sch := rfl
@[simp] theorem w1cMark_stk (r : Reg) (i k b : Nat) : (s.w1cMark r i k b).stk = s.stk := rfl
@[simp] theorem w1cMark_itl (r : Reg) (i k b : Nat) : (s.w1cMark r i k b).itl = s.itl := rfl
@[simp] theorem w1cMark_sports (r : Reg) (i k b : Nat) : (s.w1cMark r i k b).sports = s.sports := rfl
@[simp] theorem w1cMark_cic (r : Reg) (i k b : Nat) : (s.w1cMark r i k b).cic = s.cic := rfl
@[simp] theorem w1cMark_saeLapse (r : Reg) (i k b : Nat) : (s.w1cMark r i k b).saeLapse = s.saeLapse := rfl
@[simp] theorem w1cMark_refIvl (r : Reg) (i k b : Nat) : (s.w1cMark r i k b).refIvl = s.refIvl := rfl
@[simp] theorem w1cMark_pow (r : Reg) (i k b : Nat) : (s.w1cMark r i k b).pow = s.pow := rfl
@[simp] theorem w1cMark_totals (r : Reg) (i k b : Nat) : (s.w1cMark r i k b).totals = s.totals := rfl
@[simp] theorem w1cMark_undef (r : Reg) (i k b : Nat) : (s.w1cMark r i k b).undef = s.undef := rfl

/-! ### errLatch -/

@[simp] theorem errLatch_pending (key addr stat : Nat) : (s.errLatch key addr stat).pending = s.pending := rfl
@[simp] theorem errLatch_cc (key addr stat : Nat) : (s.errLatch key addr stat).cc = s.cc := rfl
@[simp] theorem errLatch_free (key addr stat : Nat) : (s.errLatch key addr stat).free = s.free := rfl
@[simp] theorem errLatch_regs (key addr stat : Nat) : (s.errLatch key addr stat).regs = s.regs := rfl
@[simp] theorem errLatch_mem (key addr stat : Nat) : (s.errLatch key addr stat).mem = s.mem := rfl
@[simp] theorem errLatch_syn (key addr stat : Nat) : (s.errLatch key addr stat).syn = s.syn := rfl
@[simp] theorem errLatch_gpois (key addr stat : Nat) : (s.errLatch key addr stat).gpois = s.gpois := rfl
@[simp] theorem errLatch_str (key addr stat : Nat) : (s.errLatch key addr stat).str = s.str := rfl
@[simp] theorem errLatch_stall (key addr stat : Nat) : (s.errLatch key addr stat).stall = s.stall := rfl
@[simp] theorem errLatch_cores (key addr stat : Nat) : (s.errLatch key addr stat).cores = s.cores := rfl
@[simp] theorem errLatch_vch (key addr stat : Nat) : (s.errLatch key addr stat).vch = s.vch := rfl
@[simp] theorem errLatch_flights (key addr stat : Nat) : (s.errLatch key addr stat).flights = s.flights := rfl
@[simp] theorem errLatch_raised (key addr stat : Nat) : (s.errLatch key addr stat).raised = s.raised := rfl
@[simp] theorem errLatch_errNow (key addr stat : Nat) : (s.errLatch key addr stat).errNow = s.errNow := rfl
@[simp] theorem errLatch_qps (key addr stat : Nat) : (s.errLatch key addr stat).qps = s.qps := rfl
@[simp] theorem errLatch_ports (key addr stat : Nat) : (s.errLatch key addr stat).ports = s.ports := rfl
@[simp] theorem errLatch_cmds (key addr stat : Nat) : (s.errLatch key addr stat).cmds = s.cmds := rfl
@[simp] theorem errLatch_rdreqs (key addr stat : Nat) : (s.errLatch key addr stat).rdreqs = s.rdreqs := rfl
@[simp] theorem errLatch_nextReq (key addr stat : Nat) : (s.errLatch key addr stat).nextReq = s.nextReq := rfl
@[simp] theorem errLatch_bbr (key addr stat : Nat) : (s.errLatch key addr stat).bbr = s.bbr := rfl
@[simp] theorem errLatch_mgmt (key addr stat : Nat) : (s.errLatch key addr stat).mgmt = s.mgmt := rfl
@[simp] theorem errLatch_life (key addr stat : Nat) : (s.errLatch key addr stat).life = s.life := rfl
@[simp] theorem errLatch_hq (key addr stat : Nat) : (s.errLatch key addr stat).hq = s.hq := rfl
@[simp] theorem errLatch_wvl (key addr stat : Nat) : (s.errLatch key addr stat).wvl = s.wvl := rfl
@[simp] theorem errLatch_sae (key addr stat : Nat) : (s.errLatch key addr stat).sae = s.sae := rfl
@[simp] theorem errLatch_kvExh (key addr stat : Nat) : (s.errLatch key addr stat).kvExh = s.kvExh := rfl
@[simp] theorem errLatch_kvMask (key addr stat : Nat) : (s.errLatch key addr stat).kvMask = s.kvMask := rfl
@[simp] theorem errLatch_kvEmpty (key addr stat : Nat) : (s.errLatch key addr stat).kvEmpty = s.kvEmpty := rfl
@[simp] theorem errLatch_sch (key addr stat : Nat) : (s.errLatch key addr stat).sch = s.sch := rfl
@[simp] theorem errLatch_stk (key addr stat : Nat) : (s.errLatch key addr stat).stk = s.stk := rfl
@[simp] theorem errLatch_itl (key addr stat : Nat) : (s.errLatch key addr stat).itl = s.itl := rfl
@[simp] theorem errLatch_sports (key addr stat : Nat) : (s.errLatch key addr stat).sports = s.sports := rfl
@[simp] theorem errLatch_cic (key addr stat : Nat) : (s.errLatch key addr stat).cic = s.cic := rfl
@[simp] theorem errLatch_saeLapse (key addr stat : Nat) : (s.errLatch key addr stat).saeLapse = s.saeLapse := rfl
@[simp] theorem errLatch_refIvl (key addr stat : Nat) : (s.errLatch key addr stat).refIvl = s.refIvl := rfl
@[simp] theorem errLatch_pow (key addr stat : Nat) : (s.errLatch key addr stat).pow = s.pow := rfl
@[simp] theorem errLatch_totals (key addr stat : Nat) : (s.errLatch key addr stat).totals = s.totals := rfl
@[simp] theorem errLatch_undef (key addr stat : Nat) : (s.errLatch key addr stat).undef = s.undef := rfl

/-! ### raise -/

@[simp] theorem raise_pending (e : Ev) (u b c v h : Nat) : (s.raise e u b c v h).pending = s.pending := rfl
@[simp] theorem raise_cc (e : Ev) (u b c v h : Nat) : (s.raise e u b c v h).cc = s.cc := rfl
@[simp] theorem raise_free (e : Ev) (u b c v h : Nat) : (s.raise e u b c v h).free = s.free := rfl
@[simp] theorem raise_regs (e : Ev) (u b c v h : Nat) : (s.raise e u b c v h).regs = s.regs := rfl
@[simp] theorem raise_mem (e : Ev) (u b c v h : Nat) : (s.raise e u b c v h).mem = s.mem := rfl
@[simp] theorem raise_syn (e : Ev) (u b c v h : Nat) : (s.raise e u b c v h).syn = s.syn := rfl
@[simp] theorem raise_gpois (e : Ev) (u b c v h : Nat) : (s.raise e u b c v h).gpois = s.gpois := rfl
@[simp] theorem raise_str (e : Ev) (u b c v h : Nat) : (s.raise e u b c v h).str = s.str := rfl
@[simp] theorem raise_stall (e : Ev) (u b c v h : Nat) : (s.raise e u b c v h).stall = s.stall := rfl
@[simp] theorem raise_cores (e : Ev) (u b c v h : Nat) : (s.raise e u b c v h).cores = s.cores := rfl
@[simp] theorem raise_vch (e : Ev) (u b c v h : Nat) : (s.raise e u b c v h).vch = s.vch := rfl
@[simp] theorem raise_flights (e : Ev) (u b c v h : Nat) : (s.raise e u b c v h).flights = s.flights := rfl
@[simp] theorem raise_errNow (e : Ev) (u b c v h : Nat) : (s.raise e u b c v h).errNow = s.errNow := rfl
@[simp] theorem raise_w1c (e : Ev) (u b c v h : Nat) : (s.raise e u b c v h).w1c = s.w1c := rfl
@[simp] theorem raise_qps (e : Ev) (u b c v h : Nat) : (s.raise e u b c v h).qps = s.qps := rfl
@[simp] theorem raise_ports (e : Ev) (u b c v h : Nat) : (s.raise e u b c v h).ports = s.ports := rfl
@[simp] theorem raise_cmds (e : Ev) (u b c v h : Nat) : (s.raise e u b c v h).cmds = s.cmds := rfl
@[simp] theorem raise_rdreqs (e : Ev) (u b c v h : Nat) : (s.raise e u b c v h).rdreqs = s.rdreqs := rfl
@[simp] theorem raise_nextReq (e : Ev) (u b c v h : Nat) : (s.raise e u b c v h).nextReq = s.nextReq := rfl
@[simp] theorem raise_bbr (e : Ev) (u b c v h : Nat) : (s.raise e u b c v h).bbr = s.bbr := rfl
@[simp] theorem raise_mgmt (e : Ev) (u b c v h : Nat) : (s.raise e u b c v h).mgmt = s.mgmt := rfl
@[simp] theorem raise_life (e : Ev) (u b c v h : Nat) : (s.raise e u b c v h).life = s.life := rfl
@[simp] theorem raise_hq (e : Ev) (u b c v h : Nat) : (s.raise e u b c v h).hq = s.hq := rfl
@[simp] theorem raise_wvl (e : Ev) (u b c v h : Nat) : (s.raise e u b c v h).wvl = s.wvl := rfl
@[simp] theorem raise_sae (e : Ev) (u b c v h : Nat) : (s.raise e u b c v h).sae = s.sae := rfl
@[simp] theorem raise_kvExh (e : Ev) (u b c v h : Nat) : (s.raise e u b c v h).kvExh = s.kvExh := rfl
@[simp] theorem raise_kvMask (e : Ev) (u b c v h : Nat) : (s.raise e u b c v h).kvMask = s.kvMask := rfl
@[simp] theorem raise_kvEmpty (e : Ev) (u b c v h : Nat) : (s.raise e u b c v h).kvEmpty = s.kvEmpty := rfl
@[simp] theorem raise_sch (e : Ev) (u b c v h : Nat) : (s.raise e u b c v h).sch = s.sch := rfl
@[simp] theorem raise_stk (e : Ev) (u b c v h : Nat) : (s.raise e u b c v h).stk = s.stk := rfl
@[simp] theorem raise_itl (e : Ev) (u b c v h : Nat) : (s.raise e u b c v h).itl = s.itl := rfl
@[simp] theorem raise_sports (e : Ev) (u b c v h : Nat) : (s.raise e u b c v h).sports = s.sports := rfl
@[simp] theorem raise_cic (e : Ev) (u b c v h : Nat) : (s.raise e u b c v h).cic = s.cic := rfl
@[simp] theorem raise_saeLapse (e : Ev) (u b c v h : Nat) : (s.raise e u b c v h).saeLapse = s.saeLapse := rfl
@[simp] theorem raise_refIvl (e : Ev) (u b c v h : Nat) : (s.raise e u b c v h).refIvl = s.refIvl := rfl
@[simp] theorem raise_pow (e : Ev) (u b c v h : Nat) : (s.raise e u b c v h).pow = s.pow := rfl
@[simp] theorem raise_totals (e : Ev) (u b c v h : Nat) : (s.raise e u b c v h).totals = s.totals := rfl
@[simp] theorem raise_undef (e : Ev) (u b c v h : Nat) : (s.raise e u b c v h).undef = s.undef := rfl

/-! ### bump -/

@[simp] theorem bump_pending (f : Fld) (i k n : Nat) : (s.bump f i k n).pending = s.pending := by unfold bump; split <;> rfl
@[simp] theorem bump_cc (f : Fld) (i k n : Nat) : (s.bump f i k n).cc = s.cc := by unfold bump; split <;> rfl
@[simp] theorem bump_free (f : Fld) (i k n : Nat) : (s.bump f i k n).free = s.free := by unfold bump; split <;> rfl
@[simp] theorem bump_mem (f : Fld) (i k n : Nat) : (s.bump f i k n).mem = s.mem := by unfold bump; split <;> rfl
@[simp] theorem bump_syn (f : Fld) (i k n : Nat) : (s.bump f i k n).syn = s.syn := by unfold bump; split <;> rfl
@[simp] theorem bump_gpois (f : Fld) (i k n : Nat) : (s.bump f i k n).gpois = s.gpois := by unfold bump; split <;> rfl
@[simp] theorem bump_str (f : Fld) (i k n : Nat) : (s.bump f i k n).str = s.str := by unfold bump; split <;> rfl
@[simp] theorem bump_stall (f : Fld) (i k n : Nat) : (s.bump f i k n).stall = s.stall := by unfold bump; split <;> rfl
@[simp] theorem bump_cores (f : Fld) (i k n : Nat) : (s.bump f i k n).cores = s.cores := by unfold bump; split <;> rfl
@[simp] theorem bump_vch (f : Fld) (i k n : Nat) : (s.bump f i k n).vch = s.vch := by unfold bump; split <;> rfl
@[simp] theorem bump_flights (f : Fld) (i k n : Nat) : (s.bump f i k n).flights = s.flights := by unfold bump; split <;> rfl
@[simp] theorem bump_raised (f : Fld) (i k n : Nat) : (s.bump f i k n).raised = s.raised := by unfold bump; split <;> rfl
@[simp] theorem bump_errNow (f : Fld) (i k n : Nat) : (s.bump f i k n).errNow = s.errNow := by unfold bump; split <;> rfl
@[simp] theorem bump_w1c (f : Fld) (i k n : Nat) : (s.bump f i k n).w1c = s.w1c := by unfold bump; split <;> rfl
@[simp] theorem bump_qps (f : Fld) (i k n : Nat) : (s.bump f i k n).qps = s.qps := by unfold bump; split <;> rfl
@[simp] theorem bump_ports (f : Fld) (i k n : Nat) : (s.bump f i k n).ports = s.ports := by unfold bump; split <;> rfl
@[simp] theorem bump_cmds (f : Fld) (i k n : Nat) : (s.bump f i k n).cmds = s.cmds := by unfold bump; split <;> rfl
@[simp] theorem bump_rdreqs (f : Fld) (i k n : Nat) : (s.bump f i k n).rdreqs = s.rdreqs := by unfold bump; split <;> rfl
@[simp] theorem bump_nextReq (f : Fld) (i k n : Nat) : (s.bump f i k n).nextReq = s.nextReq := by unfold bump; split <;> rfl
@[simp] theorem bump_bbr (f : Fld) (i k n : Nat) : (s.bump f i k n).bbr = s.bbr := by unfold bump; split <;> rfl
@[simp] theorem bump_mgmt (f : Fld) (i k n : Nat) : (s.bump f i k n).mgmt = s.mgmt := by unfold bump; split <;> rfl
@[simp] theorem bump_life (f : Fld) (i k n : Nat) : (s.bump f i k n).life = s.life := by unfold bump; split <;> rfl
@[simp] theorem bump_hq (f : Fld) (i k n : Nat) : (s.bump f i k n).hq = s.hq := by unfold bump; split <;> rfl
@[simp] theorem bump_wvl (f : Fld) (i k n : Nat) : (s.bump f i k n).wvl = s.wvl := by unfold bump; split <;> rfl
@[simp] theorem bump_sae (f : Fld) (i k n : Nat) : (s.bump f i k n).sae = s.sae := by unfold bump; split <;> rfl
@[simp] theorem bump_kvExh (f : Fld) (i k n : Nat) : (s.bump f i k n).kvExh = s.kvExh := by unfold bump; split <;> rfl
@[simp] theorem bump_kvMask (f : Fld) (i k n : Nat) : (s.bump f i k n).kvMask = s.kvMask := by unfold bump; split <;> rfl
@[simp] theorem bump_kvEmpty (f : Fld) (i k n : Nat) : (s.bump f i k n).kvEmpty = s.kvEmpty := by unfold bump; split <;> rfl
@[simp] theorem bump_sch (f : Fld) (i k n : Nat) : (s.bump f i k n).sch = s.sch := by unfold bump; split <;> rfl
@[simp] theorem bump_stk (f : Fld) (i k n : Nat) : (s.bump f i k n).stk = s.stk := by unfold bump; split <;> rfl
@[simp] theorem bump_itl (f : Fld) (i k n : Nat) : (s.bump f i k n).itl = s.itl := by unfold bump; split <;> rfl
@[simp] theorem bump_sports (f : Fld) (i k n : Nat) : (s.bump f i k n).sports = s.sports := by unfold bump; split <;> rfl
@[simp] theorem bump_cic (f : Fld) (i k n : Nat) : (s.bump f i k n).cic = s.cic := by unfold bump; split <;> rfl
@[simp] theorem bump_saeLapse (f : Fld) (i k n : Nat) : (s.bump f i k n).saeLapse = s.saeLapse := by unfold bump; split <;> rfl
@[simp] theorem bump_refIvl (f : Fld) (i k n : Nat) : (s.bump f i k n).refIvl = s.refIvl := by unfold bump; split <;> rfl
@[simp] theorem bump_pow (f : Fld) (i k n : Nat) : (s.bump f i k n).pow = s.pow := by unfold bump; split <;> rfl
@[simp] theorem bump_totals (f : Fld) (i k n : Nat) : (s.bump f i k n).totals = s.totals := by unfold bump; split <;> rfl
@[simp] theorem bump_undef (f : Fld) (i k n : Nat) : (s.bump f i k n).undef = s.undef := by unfold bump; split <;> rfl

/-! ### send -/

@[simp] theorem send_pending (q : Nat) (m : Msg) : (s.send q m).pending = s.pending := by unfold send; split <;> rfl
@[simp] theorem send_cc (q : Nat) (m : Msg) : (s.send q m).cc = s.cc := by unfold send; split <;> rfl
@[simp] theorem send_free (q : Nat) (m : Msg) : (s.send q m).free = s.free := by unfold send; split <;> rfl
@[simp] theorem send_regs (q : Nat) (m : Msg) : (s.send q m).regs = s.regs := by unfold send; split <;> rfl
@[simp] theorem send_mem (q : Nat) (m : Msg) : (s.send q m).mem = s.mem := by unfold send; split <;> rfl
@[simp] theorem send_syn (q : Nat) (m : Msg) : (s.send q m).syn = s.syn := by unfold send; split <;> rfl
@[simp] theorem send_gpois (q : Nat) (m : Msg) : (s.send q m).gpois = s.gpois := by unfold send; split <;> rfl
@[simp] theorem send_str (q : Nat) (m : Msg) : (s.send q m).str = s.str := by unfold send; split <;> rfl
@[simp] theorem send_stall (q : Nat) (m : Msg) : (s.send q m).stall = s.stall := by unfold send; split <;> rfl
@[simp] theorem send_cores (q : Nat) (m : Msg) : (s.send q m).cores = s.cores := by unfold send; split <;> rfl
@[simp] theorem send_vch (q : Nat) (m : Msg) : (s.send q m).vch = s.vch := by unfold send; split <;> rfl
@[simp] theorem send_flights (q : Nat) (m : Msg) : (s.send q m).flights = s.flights := by unfold send; split <;> rfl
@[simp] theorem send_raised (q : Nat) (m : Msg) : (s.send q m).raised = s.raised := by unfold send; split <;> rfl
@[simp] theorem send_errNow (q : Nat) (m : Msg) : (s.send q m).errNow = s.errNow := by unfold send; split <;> rfl
@[simp] theorem send_w1c (q : Nat) (m : Msg) : (s.send q m).w1c = s.w1c := by unfold send; split <;> rfl
@[simp] theorem send_ports (q : Nat) (m : Msg) : (s.send q m).ports = s.ports := by unfold send; split <;> rfl
@[simp] theorem send_cmds (q : Nat) (m : Msg) : (s.send q m).cmds = s.cmds := by unfold send; split <;> rfl
@[simp] theorem send_rdreqs (q : Nat) (m : Msg) : (s.send q m).rdreqs = s.rdreqs := by unfold send; split <;> rfl
@[simp] theorem send_nextReq (q : Nat) (m : Msg) : (s.send q m).nextReq = s.nextReq := by unfold send; split <;> rfl
@[simp] theorem send_bbr (q : Nat) (m : Msg) : (s.send q m).bbr = s.bbr := by unfold send; split <;> rfl
@[simp] theorem send_mgmt (q : Nat) (m : Msg) : (s.send q m).mgmt = s.mgmt := by unfold send; split <;> rfl
@[simp] theorem send_life (q : Nat) (m : Msg) : (s.send q m).life = s.life := by unfold send; split <;> rfl
@[simp] theorem send_hq (q : Nat) (m : Msg) : (s.send q m).hq = s.hq := by unfold send; split <;> rfl
@[simp] theorem send_wvl (q : Nat) (m : Msg) : (s.send q m).wvl = s.wvl := by unfold send; split <;> rfl
@[simp] theorem send_sae (q : Nat) (m : Msg) : (s.send q m).sae = s.sae := by unfold send; split <;> rfl
@[simp] theorem send_kvExh (q : Nat) (m : Msg) : (s.send q m).kvExh = s.kvExh := by unfold send; split <;> rfl
@[simp] theorem send_kvMask (q : Nat) (m : Msg) : (s.send q m).kvMask = s.kvMask := by unfold send; split <;> rfl
@[simp] theorem send_kvEmpty (q : Nat) (m : Msg) : (s.send q m).kvEmpty = s.kvEmpty := by unfold send; split <;> rfl
@[simp] theorem send_sch (q : Nat) (m : Msg) : (s.send q m).sch = s.sch := by unfold send; split <;> rfl
@[simp] theorem send_stk (q : Nat) (m : Msg) : (s.send q m).stk = s.stk := by unfold send; split <;> rfl
@[simp] theorem send_itl (q : Nat) (m : Msg) : (s.send q m).itl = s.itl := by unfold send; split <;> rfl
@[simp] theorem send_sports (q : Nat) (m : Msg) : (s.send q m).sports = s.sports := by unfold send; split <;> rfl
@[simp] theorem send_cic (q : Nat) (m : Msg) : (s.send q m).cic = s.cic := by unfold send; split <;> rfl
@[simp] theorem send_saeLapse (q : Nat) (m : Msg) : (s.send q m).saeLapse = s.saeLapse := by unfold send; split <;> rfl
@[simp] theorem send_refIvl (q : Nat) (m : Msg) : (s.send q m).refIvl = s.refIvl := by unfold send; split <;> rfl
@[simp] theorem send_pow (q : Nat) (m : Msg) : (s.send q m).pow = s.pow := by unfold send; split <;> rfl
@[simp] theorem send_totals (q : Nat) (m : Msg) : (s.send q m).totals = s.totals := by unfold send; split <;> rfl
@[simp] theorem send_undef (q : Nat) (m : Msg) : (s.send q m).undef = s.undef := by unfold send; split <;> rfl

/-! ### total -/

@[simp] theorem total_pending (k : Nat) : (s.total k).pending = s.pending := rfl
@[simp] theorem total_cc (k : Nat) : (s.total k).cc = s.cc := rfl
@[simp] theorem total_free (k : Nat) : (s.total k).free = s.free := rfl
@[simp] theorem total_regs (k : Nat) : (s.total k).regs = s.regs := rfl
@[simp] theorem total_mem (k : Nat) : (s.total k).mem = s.mem := rfl
@[simp] theorem total_syn (k : Nat) : (s.total k).syn = s.syn := rfl
@[simp] theorem total_gpois (k : Nat) : (s.total k).gpois = s.gpois := rfl
@[simp] theorem total_str (k : Nat) : (s.total k).str = s.str := rfl
@[simp] theorem total_stall (k : Nat) : (s.total k).stall = s.stall := rfl
@[simp] theorem total_cores (k : Nat) : (s.total k).cores = s.cores := rfl
@[simp] theorem total_vch (k : Nat) : (s.total k).vch = s.vch := rfl
@[simp] theorem total_flights (k : Nat) : (s.total k).flights = s.flights := rfl
@[simp] theorem total_raised (k : Nat) : (s.total k).raised = s.raised := rfl
@[simp] theorem total_errNow (k : Nat) : (s.total k).errNow = s.errNow := rfl
@[simp] theorem total_w1c (k : Nat) : (s.total k).w1c = s.w1c := rfl
@[simp] theorem total_qps (k : Nat) : (s.total k).qps = s.qps := rfl
@[simp] theorem total_ports (k : Nat) : (s.total k).ports = s.ports := rfl
@[simp] theorem total_cmds (k : Nat) : (s.total k).cmds = s.cmds := rfl
@[simp] theorem total_rdreqs (k : Nat) : (s.total k).rdreqs = s.rdreqs := rfl
@[simp] theorem total_nextReq (k : Nat) : (s.total k).nextReq = s.nextReq := rfl
@[simp] theorem total_bbr (k : Nat) : (s.total k).bbr = s.bbr := rfl
@[simp] theorem total_mgmt (k : Nat) : (s.total k).mgmt = s.mgmt := rfl
@[simp] theorem total_life (k : Nat) : (s.total k).life = s.life := rfl
@[simp] theorem total_hq (k : Nat) : (s.total k).hq = s.hq := rfl
@[simp] theorem total_wvl (k : Nat) : (s.total k).wvl = s.wvl := rfl
@[simp] theorem total_sae (k : Nat) : (s.total k).sae = s.sae := rfl
@[simp] theorem total_kvExh (k : Nat) : (s.total k).kvExh = s.kvExh := rfl
@[simp] theorem total_kvMask (k : Nat) : (s.total k).kvMask = s.kvMask := rfl
@[simp] theorem total_kvEmpty (k : Nat) : (s.total k).kvEmpty = s.kvEmpty := rfl
@[simp] theorem total_sch (k : Nat) : (s.total k).sch = s.sch := rfl
@[simp] theorem total_stk (k : Nat) : (s.total k).stk = s.stk := rfl
@[simp] theorem total_itl (k : Nat) : (s.total k).itl = s.itl := rfl
@[simp] theorem total_sports (k : Nat) : (s.total k).sports = s.sports := rfl
@[simp] theorem total_cic (k : Nat) : (s.total k).cic = s.cic := rfl
@[simp] theorem total_saeLapse (k : Nat) : (s.total k).saeLapse = s.saeLapse := rfl
@[simp] theorem total_refIvl (k : Nat) : (s.total k).refIvl = s.refIvl := rfl
@[simp] theorem total_pow (k : Nat) : (s.total k).pow = s.pow := rfl
@[simp] theorem total_undef (k : Nat) : (s.total k).undef = s.undef := rfl

/-! ### seenSrc -/

@[simp] theorem seenSrc_pending (l : List Nat) : (s.seenSrc l).pending = s.pending := by unfold seenSrc; dsimp only; split <;> rfl
@[simp] theorem seenSrc_cc (l : List Nat) : (s.seenSrc l).cc = s.cc := by unfold seenSrc; dsimp only; split <;> rfl
@[simp] theorem seenSrc_free (l : List Nat) : (s.seenSrc l).free = s.free := by unfold seenSrc; dsimp only; split <;> rfl
@[simp] theorem seenSrc_mem (l : List Nat) : (s.seenSrc l).mem = s.mem := by unfold seenSrc; dsimp only; split <;> rfl
@[simp] theorem seenSrc_syn (l : List Nat) : (s.seenSrc l).syn = s.syn := by unfold seenSrc; dsimp only; split <;> rfl
@[simp] theorem seenSrc_gpois (l : List Nat) : (s.seenSrc l).gpois = s.gpois := by unfold seenSrc; dsimp only; split <;> rfl
@[simp] theorem seenSrc_str (l : List Nat) : (s.seenSrc l).str = s.str := by unfold seenSrc; dsimp only; split <;> rfl
@[simp] theorem seenSrc_stall (l : List Nat) : (s.seenSrc l).stall = s.stall := by unfold seenSrc; dsimp only; split <;> rfl
@[simp] theorem seenSrc_cores (l : List Nat) : (s.seenSrc l).cores = s.cores := by unfold seenSrc; dsimp only; split <;> rfl
@[simp] theorem seenSrc_vch (l : List Nat) : (s.seenSrc l).vch = s.vch := by unfold seenSrc; dsimp only; split <;> rfl
@[simp] theorem seenSrc_flights (l : List Nat) : (s.seenSrc l).flights = s.flights := by unfold seenSrc; dsimp only; split <;> rfl
@[simp] theorem seenSrc_raised (l : List Nat) : (s.seenSrc l).raised = s.raised := by unfold seenSrc; dsimp only; split <;> rfl
@[simp] theorem seenSrc_errNow (l : List Nat) : (s.seenSrc l).errNow = s.errNow := by unfold seenSrc; dsimp only; split <;> rfl
@[simp] theorem seenSrc_qps (l : List Nat) : (s.seenSrc l).qps = s.qps := by unfold seenSrc; dsimp only; split <;> rfl
@[simp] theorem seenSrc_ports (l : List Nat) : (s.seenSrc l).ports = s.ports := by unfold seenSrc; dsimp only; split <;> rfl
@[simp] theorem seenSrc_cmds (l : List Nat) : (s.seenSrc l).cmds = s.cmds := by unfold seenSrc; dsimp only; split <;> rfl
@[simp] theorem seenSrc_rdreqs (l : List Nat) : (s.seenSrc l).rdreqs = s.rdreqs := by unfold seenSrc; dsimp only; split <;> rfl
@[simp] theorem seenSrc_nextReq (l : List Nat) : (s.seenSrc l).nextReq = s.nextReq := by unfold seenSrc; dsimp only; split <;> rfl
@[simp] theorem seenSrc_bbr (l : List Nat) : (s.seenSrc l).bbr = s.bbr := by unfold seenSrc; dsimp only; split <;> rfl
@[simp] theorem seenSrc_mgmt (l : List Nat) : (s.seenSrc l).mgmt = s.mgmt := by unfold seenSrc; dsimp only; split <;> rfl
@[simp] theorem seenSrc_life (l : List Nat) : (s.seenSrc l).life = s.life := by unfold seenSrc; dsimp only; split <;> rfl
@[simp] theorem seenSrc_hq (l : List Nat) : (s.seenSrc l).hq = s.hq := by unfold seenSrc; dsimp only; split <;> rfl
@[simp] theorem seenSrc_wvl (l : List Nat) : (s.seenSrc l).wvl = s.wvl := by unfold seenSrc; dsimp only; split <;> rfl
@[simp] theorem seenSrc_sae (l : List Nat) : (s.seenSrc l).sae = s.sae := by unfold seenSrc; dsimp only; split <;> rfl
@[simp] theorem seenSrc_kvExh (l : List Nat) : (s.seenSrc l).kvExh = s.kvExh := by unfold seenSrc; dsimp only; split <;> rfl
@[simp] theorem seenSrc_kvMask (l : List Nat) : (s.seenSrc l).kvMask = s.kvMask := by unfold seenSrc; dsimp only; split <;> rfl
@[simp] theorem seenSrc_kvEmpty (l : List Nat) : (s.seenSrc l).kvEmpty = s.kvEmpty := by unfold seenSrc; dsimp only; split <;> rfl
@[simp] theorem seenSrc_sch (l : List Nat) : (s.seenSrc l).sch = s.sch := by unfold seenSrc; dsimp only; split <;> rfl
@[simp] theorem seenSrc_stk (l : List Nat) : (s.seenSrc l).stk = s.stk := by unfold seenSrc; dsimp only; split <;> rfl
@[simp] theorem seenSrc_itl (l : List Nat) : (s.seenSrc l).itl = s.itl := by unfold seenSrc; dsimp only; split <;> rfl
@[simp] theorem seenSrc_sports (l : List Nat) : (s.seenSrc l).sports = s.sports := by unfold seenSrc; dsimp only; split <;> rfl
@[simp] theorem seenSrc_cic (l : List Nat) : (s.seenSrc l).cic = s.cic := by unfold seenSrc; dsimp only; split <;> rfl
@[simp] theorem seenSrc_saeLapse (l : List Nat) : (s.seenSrc l).saeLapse = s.saeLapse := by unfold seenSrc; dsimp only; split <;> rfl
@[simp] theorem seenSrc_refIvl (l : List Nat) : (s.seenSrc l).refIvl = s.refIvl := by unfold seenSrc; dsimp only; split <;> rfl
@[simp] theorem seenSrc_pow (l : List Nat) : (s.seenSrc l).pow = s.pow := by unfold seenSrc; dsimp only; split <;> rfl
@[simp] theorem seenSrc_totals (l : List Nat) : (s.seenSrc l).totals = s.totals := by unfold seenSrc; dsimp only; split <;> rfl
@[simp] theorem seenSrc_undef (l : List Nat) : (s.seenSrc l).undef = s.undef := by unfold seenSrc; dsimp only; split <;> rfl

/-! ### firstErr -/

@[simp] theorem firstErr_pending (ar sr cr : Reg) (i a v : Nat) : (s.firstErr ar sr cr i a v).pending = s.pending := by unfold firstErr; dsimp only; (repeat' split) <;> rfl
@[simp] theorem firstErr_cc (ar sr cr : Reg) (i a v : Nat) : (s.firstErr ar sr cr i a v).cc = s.cc := by unfold firstErr; dsimp only; (repeat' split) <;> rfl
@[simp] theorem firstErr_free (ar sr cr : Reg) (i a v : Nat) : (s.firstErr ar sr cr i a v).free = s.free := by unfold firstErr; dsimp only; (repeat' split) <;> rfl
@[simp] theorem firstErr_mem (ar sr cr : Reg) (i a v : Nat) : (s.firstErr ar sr cr i a v).mem = s.mem := by unfold firstErr; dsimp only; (repeat' split) <;> rfl
@[simp] theorem firstErr_syn (ar sr cr : Reg) (i a v : Nat) : (s.firstErr ar sr cr i a v).syn = s.syn := by unfold firstErr; dsimp only; (repeat' split) <;> rfl
@[simp] theorem firstErr_gpois (ar sr cr : Reg) (i a v : Nat) : (s.firstErr ar sr cr i a v).gpois = s.gpois := by unfold firstErr; dsimp only; (repeat' split) <;> rfl
@[simp] theorem firstErr_str (ar sr cr : Reg) (i a v : Nat) : (s.firstErr ar sr cr i a v).str = s.str := by unfold firstErr; dsimp only; (repeat' split) <;> rfl
@[simp] theorem firstErr_stall (ar sr cr : Reg) (i a v : Nat) : (s.firstErr ar sr cr i a v).stall = s.stall := by unfold firstErr; dsimp only; (repeat' split) <;> rfl
@[simp] theorem firstErr_cores (ar sr cr : Reg) (i a v : Nat) : (s.firstErr ar sr cr i a v).cores = s.cores := by unfold firstErr; dsimp only; (repeat' split) <;> rfl
@[simp] theorem firstErr_vch (ar sr cr : Reg) (i a v : Nat) : (s.firstErr ar sr cr i a v).vch = s.vch := by unfold firstErr; dsimp only; (repeat' split) <;> rfl
@[simp] theorem firstErr_flights (ar sr cr : Reg) (i a v : Nat) : (s.firstErr ar sr cr i a v).flights = s.flights := by unfold firstErr; dsimp only; (repeat' split) <;> rfl
@[simp] theorem firstErr_raised (ar sr cr : Reg) (i a v : Nat) : (s.firstErr ar sr cr i a v).raised = s.raised := by unfold firstErr; dsimp only; (repeat' split) <;> rfl
@[simp] theorem firstErr_qps (ar sr cr : Reg) (i a v : Nat) : (s.firstErr ar sr cr i a v).qps = s.qps := by unfold firstErr; dsimp only; (repeat' split) <;> rfl
@[simp] theorem firstErr_ports (ar sr cr : Reg) (i a v : Nat) : (s.firstErr ar sr cr i a v).ports = s.ports := by unfold firstErr; dsimp only; (repeat' split) <;> rfl
@[simp] theorem firstErr_cmds (ar sr cr : Reg) (i a v : Nat) : (s.firstErr ar sr cr i a v).cmds = s.cmds := by unfold firstErr; dsimp only; (repeat' split) <;> rfl
@[simp] theorem firstErr_rdreqs (ar sr cr : Reg) (i a v : Nat) : (s.firstErr ar sr cr i a v).rdreqs = s.rdreqs := by unfold firstErr; dsimp only; (repeat' split) <;> rfl
@[simp] theorem firstErr_nextReq (ar sr cr : Reg) (i a v : Nat) : (s.firstErr ar sr cr i a v).nextReq = s.nextReq := by unfold firstErr; dsimp only; (repeat' split) <;> rfl
@[simp] theorem firstErr_bbr (ar sr cr : Reg) (i a v : Nat) : (s.firstErr ar sr cr i a v).bbr = s.bbr := by unfold firstErr; dsimp only; (repeat' split) <;> rfl
@[simp] theorem firstErr_mgmt (ar sr cr : Reg) (i a v : Nat) : (s.firstErr ar sr cr i a v).mgmt = s.mgmt := by unfold firstErr; dsimp only; (repeat' split) <;> rfl
@[simp] theorem firstErr_life (ar sr cr : Reg) (i a v : Nat) : (s.firstErr ar sr cr i a v).life = s.life := by unfold firstErr; dsimp only; (repeat' split) <;> rfl
@[simp] theorem firstErr_hq (ar sr cr : Reg) (i a v : Nat) : (s.firstErr ar sr cr i a v).hq = s.hq := by unfold firstErr; dsimp only; (repeat' split) <;> rfl
@[simp] theorem firstErr_wvl (ar sr cr : Reg) (i a v : Nat) : (s.firstErr ar sr cr i a v).wvl = s.wvl := by unfold firstErr; dsimp only; (repeat' split) <;> rfl
@[simp] theorem firstErr_sae (ar sr cr : Reg) (i a v : Nat) : (s.firstErr ar sr cr i a v).sae = s.sae := by unfold firstErr; dsimp only; (repeat' split) <;> rfl
@[simp] theorem firstErr_kvExh (ar sr cr : Reg) (i a v : Nat) : (s.firstErr ar sr cr i a v).kvExh = s.kvExh := by unfold firstErr; dsimp only; (repeat' split) <;> rfl
@[simp] theorem firstErr_kvMask (ar sr cr : Reg) (i a v : Nat) : (s.firstErr ar sr cr i a v).kvMask = s.kvMask := by unfold firstErr; dsimp only; (repeat' split) <;> rfl
@[simp] theorem firstErr_kvEmpty (ar sr cr : Reg) (i a v : Nat) : (s.firstErr ar sr cr i a v).kvEmpty = s.kvEmpty := by unfold firstErr; dsimp only; (repeat' split) <;> rfl
@[simp] theorem firstErr_sch (ar sr cr : Reg) (i a v : Nat) : (s.firstErr ar sr cr i a v).sch = s.sch := by unfold firstErr; dsimp only; (repeat' split) <;> rfl
@[simp] theorem firstErr_stk (ar sr cr : Reg) (i a v : Nat) : (s.firstErr ar sr cr i a v).stk = s.stk := by unfold firstErr; dsimp only; (repeat' split) <;> rfl
@[simp] theorem firstErr_itl (ar sr cr : Reg) (i a v : Nat) : (s.firstErr ar sr cr i a v).itl = s.itl := by unfold firstErr; dsimp only; (repeat' split) <;> rfl
@[simp] theorem firstErr_sports (ar sr cr : Reg) (i a v : Nat) : (s.firstErr ar sr cr i a v).sports = s.sports := by unfold firstErr; dsimp only; (repeat' split) <;> rfl
@[simp] theorem firstErr_cic (ar sr cr : Reg) (i a v : Nat) : (s.firstErr ar sr cr i a v).cic = s.cic := by unfold firstErr; dsimp only; (repeat' split) <;> rfl
@[simp] theorem firstErr_saeLapse (ar sr cr : Reg) (i a v : Nat) : (s.firstErr ar sr cr i a v).saeLapse = s.saeLapse := by unfold firstErr; dsimp only; (repeat' split) <;> rfl
@[simp] theorem firstErr_refIvl (ar sr cr : Reg) (i a v : Nat) : (s.firstErr ar sr cr i a v).refIvl = s.refIvl := by unfold firstErr; dsimp only; (repeat' split) <;> rfl
@[simp] theorem firstErr_pow (ar sr cr : Reg) (i a v : Nat) : (s.firstErr ar sr cr i a v).pow = s.pow := by unfold firstErr; dsimp only; (repeat' split) <;> rfl
@[simp] theorem firstErr_totals (ar sr cr : Reg) (i a v : Nat) : (s.firstErr ar sr cr i a v).totals = s.totals := by unfold firstErr; dsimp only; (repeat' split) <;> rfl
@[simp] theorem firstErr_undef (ar sr cr : Reg) (i a v : Nat) : (s.firstErr ar sr cr i a v).undef = s.undef := by unfold firstErr; dsimp only; (repeat' split) <;> rfl

end Sys2Proof.Machine.State
end

