-- ==== Sys2Proof/Safety.lean ====
section
/-!
DEFINITION. What counts as a safe run, and the conditions that statements about commands name.
-/
namespace Sys2Proof.Machine

/-- Between commands no event that is due waits and no error mark is left (R537, R538): the collecting controller's queue holds events of the
present SCLK cycle only, in their order, and at most 4,096 of them. -/
def Quiet (s : State) : Prop :=
  s.raised.Pairwise (fun a b => a.before b = true) ∧ (∀ e ∈ s.raised, s.cc / 4 ≤ e.sclk) ∧ s.raised.length ≤ 4096 ∧ s.errNow = []

/-- A step of a safe run: it answers a next state, neither a fault nor a refusal. -/
def SafeStep (s : State) : Prop := ∃ t, step s = .next t

/-- R421 to R423, R532: nothing refuses an ECP command at its ACK. `free` are the commands that need no session, `always` the two that no
command of their group keeps out. -/
def Takes (s : State) (h : EcpHdr) (op group : Nat) (free always : Bool) : Prop :=
  s.life.warm = false ∧ s.lbistRefuses op group = false ∧
  (free = true ∨ (s.flag F.ECP_QPSTAT_SESS h.qp = true ∧ s.fget F.ECP_SESSION_SESSION h.qp = h.session.toNat ∧
    (s.cmds.filter fun c => c.qp = h.qp.val).length < 32)) ∧
  (group = 0 ∨ always = true ∨ (s.cmds.any fun c => c.group = group) = false)

/-- The addresses of the registers that the delivery of events writes: the counters of lost events, BBR_PENDING and BBR_QSTAT. -/
def reportRegs : List Nat :=
  Reg.addr .SYS_EVLOST 0 0 :: Reg.addr .BBR_PENDING 0 0 :: Reg.addr .BBR_QSTAT 0 0 ::
    (List.range 256).map fun q => Reg.addr .ECP_EVLOST q 0

/-- Every register but those at the addresses named, and but those that the delivery of events counts in, reads as before. -/
def RegsKept (s t : State) (as : List Nat) : Prop :=
  ∀ (r : Reg) (i k : Nat), r.addr i k ∉ as → r.addr i k ∉ reportRegs → t.rget r i k = s.rget r i k

/-- A counter one higher: counters saturate at all ones. -/
def Fld.up (f : Fld) (v : Nat) : Nat := min (v + 1) (2 ^ (f.hi - f.lo + 1) - 1)

/-- The ECP commands (R424): header, opcode, group, whether the command needs no session, and whether no command of its group keeps it out
(R423); PAIR_MODE replaces one that still waits for a boundary. -/
def State.ecpRow (s : State) : Instr → Option (EcpHdr × Nat × Nat × Bool × Bool)
  | .sessionOpen h => some (h, OP.SESSION_OPEN, GRP_SESSION, true, false)
  | .sessionProof h _ => some (h, OP.SESSION_PROOF, GRP_SESSION, true, false)
  | .sessionClose h => some (h, OP.SESSION_CLOSE, GRP_SESSION, false, false)
  | .eventCfg h _ => some (h, OP.EVENT_CFG, GRP_SESSION, false, false)
  | .regRead h _ _ => some (h, OP.REG_READ, 0, false, false)
  | .regWrite h _ _ => some (h, OP.REG_WRITE, 0, false, false)
  | .memRead h _ _ => some (h, OP.MEM_READ, 0, false, false)
  | .streamLoad h _ => some (h, OP.STREAM_LOAD, GRP_STREAM, false, false)
  | .streamStart h _ => some (h, OP.STREAM_START, GRP_STREAM, false, false)
  | .streamHalt h _ => some (h, OP.STREAM_HALT, GRP_STREAM, false, true)
  | .streamResume h => some (h, OP.STREAM_RESUME, GRP_STREAM, false, false)
  | .chmapSet h _ _ _ => some (h, OP.CHMAP_SET, GRP_MAP, false, false)
  | .kvRefill h _ => some (h, OP.KV_REFILL, GRP_PAGES, false, false)
  | .moltHalf h _ _ => some (h, OP.MOLT_HALF, GRP_REPAIR, false, false)
  | .lbistRun h _ _ => some (h, OP.LBIST_RUN, GRP_REPAIR, false, false)
  | .halfReset h _ => some (h, OP.HALF_RESET, GRP_REPAIR, false, false)
  | .warmReset h => some (h, OP.WARM_RESET, GRP_REPAIR, false, true)
  | .licenceInstall h _ => some (h, OP.LICENCE_INSTALL, GRP_LICENCE, false, false)
  | .bbrRead h _ _ => some (h, OP.BBR_READ, GRP_BBR, false, false)
  | .bbrAck h _ => some (h, OP.BBR_ACK, GRP_BBR, false, false)
  | .pairMode h _ _ _ _ _ _ _ _ => some (h, OP.PAIR_MODE, GRP_PAIR, false, s.cic.pending.isSome)
  | _ => none

end Sys2Proof.Machine
end

