-- ==== Sys2Proof/Laws/Report.lean ====
section
/-!
SUPPORT. What the delivery of a command's events can do, said once: it writes the report side of the state (queue pairs, black box,
management port and four counters) and nothing else; and what a command that waits for its condition answers.
-/
namespace Sys2Proof.Machine

/-- `t` is `s` but for the report side: those registers, queue pairs, black box and management port. -/
def State.Reported (s t : State) : Prop :=
  ∃ r q b m, t = { s with regs := r, qps := q, bbr := b, mgmt := m } ∧ ∀ a, a ∉ reportRegs → ∀ d, smGet d r a = smGet d s.regs a

namespace State

theorem Reported.refl (s : State) : s.Reported s := ⟨s.regs, s.qps, s.bbr, s.mgmt, rfl, fun _ _ _ => rfl⟩

theorem Reported.trans {s t u : State} (h : s.Reported t) (h' : t.Reported u) : s.Reported u := by
  obtain ⟨r, q, b, m, rfl, h⟩ := h
  obtain ⟨r', q', b', m', rfl, h'⟩ := h'
  exact ⟨r', q', b', m', rfl, fun a ha d => (h' a ha d).trans (h a ha d)⟩

theorem reported_setQp (s : State) (q : Nat) (v : Qp) : s.Reported (s.setQp q v) := ⟨s.regs, _, s.bbr, s.mgmt, rfl, fun _ _ _ => rfl⟩
theorem reported_bbr (s : State) (b : Bbr) : s.Reported { s with bbr := b } := ⟨s.regs, s.qps, _, s.mgmt, rfl, fun _ _ _ => rfl⟩
theorem reported_mgmt (s : State) (m : Mgmt) : s.Reported { s with mgmt := m } := ⟨s.regs, s.qps, s.bbr, _, rfl, fun _ _ _ => rfl⟩

theorem reported_rset (s : State) (r : Reg) (i k v : Nat) (h : r.addr i k ∈ reportRegs) : s.Reported (s.rset r i k v) :=
  ⟨_, s.qps, s.bbr, s.mgmt, rfl, fun a ha d => smGet_smPut_ne _ d _ (show a ≠ r.addr i k from fun e => ha (by rw [e]; exact h)) _⟩

theorem reported_ite (s a b : State) (c : Prop) [Decidable c] (ha : s.Reported a) (hb : s.Reported b) :
    s.Reported (if c then a else b) := by
  split <;> assumption

theorem reported_bump (s : State) (f : Fld) (i k n : Nat) (h : f.reg.addr i k ∈ reportRegs) : s.Reported (s.bump f i k n) :=
  reported_ite s _ _ _ (Reported.refl s) (reported_rset s _ _ _ _ h)

theorem reported_foldl {α : Type} (f : State → α → State) (l : List α) (h : ∀ (s : State), ∀ a ∈ l, s.Reported (f s a)) :
    ∀ s : State, s.Reported (l.foldl f s) := by
  induction l with
  | nil => exact Reported.refl
  | cons a l ih =>
    exact fun s => (h s a (by simp)).trans (ih (fun s b hb => h s b (by simp [hb])) (f s a))

theorem evlost_mem {q : Nat} (h : q < 256) : Reg.addr .ECP_EVLOST q 0 ∈ reportRegs := by
  simp only [reportRegs, List.mem_cons, List.mem_map, List.mem_range]
  exact .inr (.inr (.inr ⟨q, h, rfl⟩))

theorem reported_sendEvent (s : State) (q : Nat) (e : Event) (c v : Nat) (h : q < 256) : s.Reported (s.sendEvent q e c v) :=
  reported_ite s _ _ _ ((reported_setQp ..).trans (reported_bump _ _ _ _ _ (evlost_mem h))) (reported_setQp ..)

theorem reported_bbrStart (s : State) : s.Reported s.bbrStart := by
  unfold bbrStart
  split
  · refine reported_ite s _ _ _ (Reported.refl s) ?_
    exact reported_ite s _ _ _ ((reported_bbr s _).trans (reported_rset _ _ _ _ _ (by simp [reportRegs]))) (reported_bbr s _)
  · exact Reported.refl s

theorem reported_bbrPut (s : State) (e : BbrEntry) : s.Reported (s.bbrPut e) :=
  reported_ite s _ _ _ ((reported_bbr s _).trans (reported_bump _ _ _ _ _ (by simp [reportRegs])))
    ((reported_bbr s _).trans (reported_bbrStart _))

theorem sessions_lt (s : State) {q : Nat} (h : q ∈ s.sessions) : q < 256 := by
  simpa using (List.mem_filter.mp h).1

theorem reported_deliver (s : State) (e : Event) : s.Reported (s.deliver e) := by
  let qs := s.sessions.filter fun q => s.fget F.ECP_SESSION_MINSEV q ≤ e.ev.info.2.1 || e.qp = some q
  have h1 : s.Reported (qs.foldl (fun s q => s.sendEvent q e e.ev.info.1 e.ev.info.2.1) s) :=
    reported_foldl _ _ (fun t q hq => reported_sendEvent t q _ _ _ (s.sessions_lt (List.mem_filter.mp hq).1)) _
  have h2 (c : Prop) [Decidable c] (x : BbrEntry) := reported_ite s _ _ c (h1.trans (reported_bbrPut _ x)) h1
  exact reported_ite s _ _ _ ((h2 _ _).trans (reported_mgmt ..)) (h2 _ _)

theorem reported_loseEvent (s : State) : s.Reported s.loseEvent :=
  (reported_bump _ _ _ _ _ (by simp [reportRegs])).trans (reported_foldl _ _ (fun s q _ => reported_setQp s q _) _)

theorem reported_deliverNext (l : List Event) : ∀ p : State × Nat × Nat, p.1.Reported (l.foldl deliverNext p).1 := by
  induction l with
  | nil => exact fun p => Reported.refl p.1
  | cons e l ih =>
    exact fun p => (reported_ite p.1 _ _ _ (reported_deliver ..) (reported_loseEvent p.1)).trans (ih (deliverNext p e))

/-- The delivery of events writes the report side only; events of the present SCLK cycle wait. -/
theorem settle_reported (s : State) : ∃ r q b m,
    s.settle = { s with regs := r, qps := q, bbr := b, mgmt := m, raised := s.eventsDue.2.take 4096, errNow := [] } ∧
    ∀ a, a ∉ reportRegs → ∀ d, smGet d r a = smGet d s.regs a := by
  obtain ⟨r, q, b, m, h, ha⟩ := (reported_deliverNext s.eventsDue.1 (s, s.cc, 0)).trans
    (reported_foldl (fun s _ => s.loseEvent) (s.eventsDue.2.drop 4096) (fun s _ _ => reported_loseEvent s) _)
  exact ⟨r, q, b, m, by unfold settle deliverDue; rw [h], ha⟩

/-- Every other register reads as before the delivery. -/
theorem settle_rget (s : State) (r : Reg) (i k : Nat) (h : r.addr i k ∉ reportRegs) : s.settle.rget r i k = s.rget r i k := by
  obtain ⟨rs, q, b, m, e, ha⟩ := settle_reported s
  simp only [rget, e, ha _ h]

theorem settle_fget (s : State) (f : Fld) (i k : Nat) (h : f.reg.addr i k ∉ reportRegs) : s.settle.fget f i k = s.fget f i k := by
  simp only [fget, settle_rget s _ _ _ h]

/-- An event that comes after all others is the last. -/
theorem insertEvent_last (e : Event) (l : List Event) (h : ∀ x ∈ l, x.before e = true) : insertEvent e l = l ++ [e] := by
  induction l with
  | nil => rfl
  | cons x l ih => simp [insertEvent, h x (by simp), ih fun y hy => h y (by simp [hy])]

/-- Events in order stay as they are. -/
theorem sortEvents_sorted (l : List Event) : ∀ acc : List Event, (acc ++ l).Pairwise (fun a b => a.before b = true) →
    sortEvents acc l = acc ++ l := by
  induction l with
  | nil => simp [sortEvents]
  | cons e l ih =>
    intro acc h
    have h1 : ∀ x ∈ acc, x.before e = true := fun x hx => (List.pairwise_append.mp h).2.2 x hx e (by simp)
    rw [sortEvents, insertEvent_last e acc h1, ih (acc ++ [e]) (by simpa using h)]
    simp

/-- Where no event is due and no error mark is left, nothing is delivered. -/
theorem settle_quiet (s : State) (h : Quiet s) : s.settle = s := by
  obtain ⟨h1, h2, h3, h4⟩ := h
  have hs : sortEvents [] s.raised = s.raised := sortEvents_sorted _ [] (by simpa using h1)
  have hp : s.eventsDue = ([], s.raised) := by
    unfold eventsDue
    have a1 : s.raised.filter (fun e => decide (e.sclk < s.cc / 4)) = [] :=
      List.filter_eq_nil_iff.mpr fun e he => by have := h2 e he; simp; omega
    have a2 : s.raised.filter (not ∘ fun e => decide (e.sclk < s.cc / 4)) = s.raised :=
      List.filter_eq_self.mpr fun e he => by have := h2 e he; simp; omega
    rw [hs, List.partition_eq_filter_filter, a1, a2]
  have hd : s.raised.drop 4096 = [] := List.drop_eq_nil_of_le h3
  have ht : s.raised.take 4096 = s.raised := List.take_of_length_le h3
  simp [settle, deliverDue, hp, hd, ht, ← h4]

/-- Only the time, the waiting events and the error marks decide it. -/
theorem quiet_congr {s t : State} (h : Quiet s) (hr : t.raised = s.raised) (hc : t.cc = s.cc) (he : t.errNow = s.errNow) : Quiet t := by
  unfold Quiet at *
  rwa [hr, hc, he]

@[simp] theorem settle_cc (s : State) : s.settle.cc = s.cc := by obtain ⟨r, q, b, m, h, _⟩ := settle_reported s; rw [h]
@[simp] theorem settle_free (s : State) : s.settle.free = s.free := by obtain ⟨r, q, b, m, h, _⟩ := settle_reported s; rw [h]
@[simp] theorem settle_mem (s : State) : s.settle.mem = s.mem := by obtain ⟨r, q, b, m, h, _⟩ := settle_reported s; rw [h]
@[simp] theorem settle_syn (s : State) : s.settle.syn = s.syn := by obtain ⟨r, q, b, m, h, _⟩ := settle_reported s; rw [h]
@[simp] theorem settle_gpois (s : State) : s.settle.gpois = s.gpois := by obtain ⟨r, q, b, m, h, _⟩ := settle_reported s; rw [h]
@[simp] theorem settle_str (s : State) : s.settle.str = s.str := by obtain ⟨r, q, b, m, h, _⟩ := settle_reported s; rw [h]
@[simp] theorem settle_stall (s : State) : s.settle.stall = s.stall := by obtain ⟨r, q, b, m, h, _⟩ := settle_reported s; rw [h]
@[simp] theorem settle_cores (s : State) : s.settle.cores = s.cores := by obtain ⟨r, q, b, m, h, _⟩ := settle_reported s; rw [h]
@[simp] theorem settle_vch (s : State) : s.settle.vch = s.vch := by obtain ⟨r, q, b, m, h, _⟩ := settle_reported s; rw [h]
@[simp] theorem settle_flights (s : State) : s.settle.flights = s.flights := by obtain ⟨r, q, b, m, h, _⟩ := settle_reported s; rw [h]
@[simp] theorem settle_ports (s : State) : s.settle.ports = s.ports := by obtain ⟨r, q, b, m, h, _⟩ := settle_reported s; rw [h]
@[simp] theorem settle_cmds (s : State) : s.settle.cmds = s.cmds := by obtain ⟨r, q, b, m, h, _⟩ := settle_reported s; rw [h]
@[simp] theorem settle_rdreqs (s : State) : s.settle.rdreqs = s.rdreqs := by obtain ⟨r, q, b, m, h, _⟩ := settle_reported s; rw [h]
@[simp] theorem settle_nextReq (s : State) : s.settle.nextReq = s.nextReq := by obtain ⟨r, q, b, m, h, _⟩ := settle_reported s; rw [h]
@[simp] theorem settle_life (s : State) : s.settle.life = s.life := by obtain ⟨r, q, b, m, h, _⟩ := settle_reported s; rw [h]
@[simp] theorem settle_hq (s : State) : s.settle.hq = s.hq := by obtain ⟨r, q, b, m, h, _⟩ := settle_reported s; rw [h]
@[simp] theorem settle_wvl (s : State) : s.settle.wvl = s.wvl := by obtain ⟨r, q, b, m, h, _⟩ := settle_reported s; rw [h]
@[simp] theorem settle_sae (s : State) : s.settle.sae = s.sae := by obtain ⟨r, q, b, m, h, _⟩ := settle_reported s; rw [h]
@[simp] theorem settle_kvExh (s : State) : s.settle.kvExh = s.kvExh := by obtain ⟨r, q, b, m, h, _⟩ := settle_reported s; rw [h]
@[simp] theorem settle_sch (s : State) : s.settle.sch = s.sch := by obtain ⟨r, q, b, m, h, _⟩ := settle_reported s; rw [h]
@[simp] theorem settle_stk (s : State) : s.settle.stk = s.stk := by obtain ⟨r, q, b, m, h, _⟩ := settle_reported s; rw [h]
@[simp] theorem settle_itl (s : State) : s.settle.itl = s.itl := by obtain ⟨r, q, b, m, h, _⟩ := settle_reported s; rw [h]
@[simp] theorem settle_sports (s : State) : s.settle.sports = s.sports := by obtain ⟨r, q, b, m, h, _⟩ := settle_reported s; rw [h]
@[simp] theorem settle_cic (s : State) : s.settle.cic = s.cic := by obtain ⟨r, q, b, m, h, _⟩ := settle_reported s; rw [h]
@[simp] theorem settle_saeLapse (s : State) : s.settle.saeLapse = s.saeLapse := by obtain ⟨r, q, b, m, h, _⟩ := settle_reported s; rw [h]
@[simp] theorem settle_refIvl (s : State) : s.settle.refIvl = s.refIvl := by obtain ⟨r, q, b, m, h, _⟩ := settle_reported s; rw [h]
@[simp] theorem settle_pow (s : State) : s.settle.pow = s.pow := by obtain ⟨r, q, b, m, h, _⟩ := settle_reported s; rw [h]
@[simp] theorem settle_totals (s : State) : s.settle.totals = s.totals := by obtain ⟨r, q, b, m, h, _⟩ := settle_reported s; rw [h]
@[simp] theorem settle_undef (s : State) : s.settle.undef = s.undef := by obtain ⟨r, q, b, m, h, _⟩ := settle_reported s; rw [h]
@[simp] theorem settle_raised (s : State) : s.settle.raised = s.eventsDue.2.take 4096 := rfl
@[simp] theorem settle_errNow (s : State) : s.settle.errNow = [] := rfl
@[simp] theorem settle_pending (s : State) : s.settle.pending = s.pending := by obtain ⟨r, q, b, m, h, _⟩ := settle_reported s; rw [h]

@[simp] theorem finish_cc (s t : State) : (s.finish t).cc = t.cc := settle_cc t
@[simp] theorem finish_free (s t : State) : (s.finish t).free = t.free := settle_free t
@[simp] theorem finish_mem (s t : State) : (s.finish t).mem = t.mem := settle_mem t
@[simp] theorem finish_syn (s t : State) : (s.finish t).syn = t.syn := settle_syn t
@[simp] theorem finish_gpois (s t : State) : (s.finish t).gpois = t.gpois := settle_gpois t
@[simp] theorem finish_str (s t : State) : (s.finish t).str = t.str := settle_str t
@[simp] theorem finish_stall (s t : State) : (s.finish t).stall = t.stall := settle_stall t
@[simp] theorem finish_cores (s t : State) : (s.finish t).cores = t.cores := settle_cores t
@[simp] theorem finish_vch (s t : State) : (s.finish t).vch = t.vch := settle_vch t
@[simp] theorem finish_flights (s t : State) : (s.finish t).flights = t.flights := settle_flights t
@[simp] theorem finish_ports (s t : State) : (s.finish t).ports = t.ports := settle_ports t
@[simp] theorem finish_cmds (s t : State) : (s.finish t).cmds = t.cmds := settle_cmds t
@[simp] theorem finish_rdreqs (s t : State) : (s.finish t).rdreqs = t.rdreqs := settle_rdreqs t
@[simp] theorem finish_nextReq (s t : State) : (s.finish t).nextReq = t.nextReq := settle_nextReq t
@[simp] theorem finish_life (s t : State) : (s.finish t).life = t.life := settle_life t
@[simp] theorem finish_hq (s t : State) : (s.finish t).hq = t.hq := settle_hq t
@[simp] theorem finish_wvl (s t : State) : (s.finish t).wvl = t.wvl := settle_wvl t
@[simp] theorem finish_sae (s t : State) : (s.finish t).sae = t.sae := settle_sae t
@[simp] theorem finish_kvExh (s t : State) : (s.finish t).kvExh = t.kvExh := settle_kvExh t
@[simp] theorem finish_sch (s t : State) : (s.finish t).sch = t.sch := settle_sch t
@[simp] theorem finish_stk (s t : State) : (s.finish t).stk = t.stk := settle_stk t
@[simp] theorem finish_itl (s t : State) : (s.finish t).itl = t.itl := settle_itl t
@[simp] theorem finish_sports (s t : State) : (s.finish t).sports = t.sports := settle_sports t
@[simp] theorem finish_cic (s t : State) : (s.finish t).cic = t.cic := settle_cic t
@[simp] theorem finish_saeLapse (s t : State) : (s.finish t).saeLapse = t.saeLapse := settle_saeLapse t
@[simp] theorem finish_refIvl (s t : State) : (s.finish t).refIvl = t.refIvl := settle_refIvl t
@[simp] theorem finish_pow (s t : State) : (s.finish t).pow = t.pow := settle_pow t
@[simp] theorem finish_totals (s t : State) : (s.finish t).totals = t.totals := settle_totals t
@[simp] theorem finish_undef (s t : State) : (s.finish t).undef = t.undef := settle_undef t
@[simp] theorem finish_raised (s t : State) : (s.finish t).raised = t.eventsDue.2.take 4096 := rfl
@[simp] theorem finish_errNow (s t : State) : (s.finish t).errNow = [] := rfl
@[simp] theorem finish_pending (s t : State) : (s.finish t).pending = s.pending := rfl

theorem finish_rget (s t : State) (r : Reg) (i k : Nat) (h : r.addr i k ∉ reportRegs) : (s.finish t).rget r i k = t.rget r i k :=
  settle_rget t r i k h
theorem finish_fget (s t : State) (f : Fld) (i k : Nat) (h : f.reg.addr i k ∉ reportRegs) : (s.finish t).fget f i k = t.fget f i k :=
  settle_fget t f i k h

/-- An effect that raises no event is the whole change. -/
theorem finish_quiet (s t : State) (h : Quiet t) : s.finish t = { t with pending := s.pending } := by
  unfold finish
  rw [settle_quiet t h]

/-- A command whose condition holds has its effect. -/
theorem when_true (s : State) (c : Bool) (f : State → State) (h : c = true) : s.when c f = .next (s.finish (f s)) := by
  unfold State.when; rw [if_pos h]

/-- A command whose condition does not hold leaves the block as it is. -/
theorem when_false (s : State) (c : Bool) (f : State → State) (h : c = false) : s.when c f = .next s := by
  unfold State.when; simp [h]

/-- Whatever its condition, a command answers a next state, and the queue is as it was. -/
theorem when_next (s : State) (c : Bool) (f : State → State) : ∃ t, s.when c f = .next t ∧ t.pending = s.pending ∧
    (t = s ∨ (c = true ∧ t = s.finish (f s))) := by
  cases c
  · exact ⟨s, when_false s _ f rfl, rfl, .inl rfl⟩
  · exact ⟨_, when_true s _ f rfl, rfl, .inr ⟨rfl, rfl⟩⟩

end State

end Sys2Proof.Machine
end

