-- ==== Sys2Proof/Laws/Ecp.lean ====
section
/-!
SUPPORT. What taking an ECP command does, said once: with nothing to refuse it, its body is acted on and answered.
-/
namespace Sys2Proof.Machine.State

theorem bits_lt (x hi lo : Nat) : bits x hi lo < 2 ^ (hi - lo + 1) := Nat.mod_lt _ (Nat.two_pow_pos _)

theorem ceMark_life (s : State) (q : Nat) : (s.ceMark q).life = s.life := by
  unfold ceMark bump; dsimp only; split <;> (try split) <;> rfl

theorem ceMark_cmds (s : State) (q : Nat) : (s.ceMark q).cmds = s.cmds := by
  unfold ceMark bump; dsimp only; split <;> (try split) <;> rfl

/-- A CNP counts in its port's register and in no register of the ECP block. -/
theorem ceMark_rget (s : State) (q : Nat) (r : Reg) (i k : Nat) (h : ∀ p < 8, r.addr i k ≠ Reg.addr .ETH_CNPCNT p 0) :
    (s.ceMark q).rget r i k = s.rget r i k := by
  have hc : ∀ c : Bool, (if c then s else (s.setQp q { s.qp q with cnpAt := some s.cc }).bump F.ETH_CNPCNT_COUNT
      (s.fget F.ECP_QPSTAT_PORT q) 0 1).rget r i k = s.rget r i k := by
    intro c
    split
    · rfl
    · exact rget_bump_ne _ _ _ _ _ _ _ _ (h _ (bits_lt _ _ _))
  exact hc _

theorem addr_qpstat (q : Nat) : Reg.addr .ECP_QPSTAT q 0 = 0x7F0121000000 + q * 0x10000 := by
  rw [Reg.addr_local _ 18 0 8 rfl rfl rfl rfl]; omega
theorem addr_session (q : Nat) : Reg.addr .ECP_SESSION q 0 = 0x7F0121000018 + q * 0x10000 := by
  rw [Reg.addr_local _ 18 0x18 8 rfl rfl rfl rfl]; omega
theorem addr_cnpcnt (p : Nat) : Reg.addr .ETH_CNPCNT p 0 = 0x7F0071000060 + p * 0x10000 := by
  rw [Reg.addr_local _ 7 0x60 8 rfl rfl rfl rfl]; omega

/-- With nothing to refuse it (R421 to R423), the body of a command is acted on and answered. -/
theorem ecp_takes (s : State) (h : EcpHdr) (op group : Nat) (free always : Bool) (args : List Nat) (data : List Byte)
    (act : State → State × Answer) (ht : Takes s h op group free always) :
    s.ecp h op group free always args data act = (act (s.taken h)).1.answer h op group args data (act (s.taken h)).2 := by
  obtain ⟨hw, hl, hs, hg⟩ := ht
  have e : ∀ s' : State, s' = (if h.ce = true then s.ceMark h.qp.val else s) →
      s'.life = s.life ∧ s'.cmds = s.cmds ∧ s'.flag F.ECP_QPSTAT_SESS h.qp = s.flag F.ECP_QPSTAT_SESS h.qp ∧
      s'.fget F.ECP_SESSION_SESSION h.qp = s.fget F.ECP_SESSION_SESSION h.qp := by
    intro s' hs'
    have hne : ∀ p < 8, Reg.addr .ECP_QPSTAT h.qp.val 0 ≠ Reg.addr .ETH_CNPCNT p 0 := by
      intro p hp; rw [addr_qpstat, addr_cnpcnt]; omega
    have hne' : ∀ p < 8, Reg.addr .ECP_SESSION h.qp.val 0 ≠ Reg.addr .ETH_CNPCNT p 0 := by
      intro p hp; rw [addr_session, addr_cnpcnt]; omega
    subst hs'
    split
    · refine ⟨ceMark_life .., ceMark_cmds .., ?_, ?_⟩
      · unfold flag fget; rw [ceMark_rget _ _ _ _ _ hne]
      · simp only [fget, ceMark_rget _ _ _ _ _ hne']
    · exact ⟨rfl, rfl, rfl, rfl⟩
  obtain ⟨e1, e2, e3, e4⟩ := e _ rfl
  unfold ecp
  dsimp only
  rw [if_neg (by rw [e1, hw]; decide)]
  rw [if_neg (by unfold lbistRefuses at *; rw [e1, hl]; decide)]
  rw [if_neg (by rw [e3, e4]; rcases hs with hf | ⟨h1, h2, _⟩ <;> simp_all)]
  rw [if_neg (by rw [e2]; rcases hs with hf | ⟨_, _, h3⟩ <;> simp_all)]
  rw [if_neg (by rw [e2]; rcases hg with hf | hf | hf <;> simp_all)]

end Sys2Proof.Machine.State
end

