-- ==== Sys2Proof/Laws/Exec.lean ====
section
/-!
SUPPORT. The dispatch, arm by arm, and what every command is: an effect under a condition.
-/
namespace Sys2Proof.Machine

variable (s : State)

/-- A command that occurs only where its condition holds. -/
def Guarded (r : State → Host.Outcome State Fault Refusal) : Prop := ∀ s : State, ∃ (g : Bool) (f : State → State), r s = s.when g f

theorem guarded_when (g : State → Bool) (f : State → State → State) : Guarded fun s => s.when (g s) (f s) := fun _ => ⟨_, _, rfl⟩

theorem exec_bundle (x) : exec (.bundle x) s = execBundle x s := rfl
theorem exec_freezeBegin : exec (.freezeBegin) s = execFreezeBegin s := rfl
theorem exec_stallRelease (src half unit) : exec (.stallRelease src half unit) s = execStallRelease src half unit s := rfl
theorem exec_freezeLift : exec (.freezeLift) s = execFreezeLift s := rfl
theorem exec_gatingWindow : exec (.gatingWindow) s = execGatingWindow s := rfl
theorem exec_stallTimeout : exec (.stallTimeout) s = execStallTimeout s := rfl
theorem exec_debugStep (n) : exec (.debugStep n) s = execDebugStep n s := rfl
theorem exec_debugRefreeze : exec (.debugRefreeze) s = execDebugRefreeze s := rfl
theorem exec_streamLoad (h id) : exec (.streamLoad h id) s = execStreamLoad h id s := rfl
theorem exec_streamStart (h force) : exec (.streamStart h force) s = execStreamStart h force s := rfl
theorem exec_startCode : exec (.startCode) s = execStartCode s := rfl
theorem exec_streamHalt (h mode) : exec (.streamHalt h mode) s = execStreamHalt h mode s := rfl
theorem exec_streamResume (h) : exec (.streamResume h) s = execStreamResume h s := rfl
theorem exec_mailboxWrite (slot off d) : exec (.mailboxWrite slot off d) s = execMailboxWrite slot off d s := rfl
theorem exec_mailboxPresent (slot) : exec (.mailboxPresent slot) s = execMailboxPresent slot s := rfl
theorem exec_arrRowmapWrite (core v) : exec (.arrRowmapWrite core v) s = execArrRowmapWrite core v s := rfl
theorem exec_refreshInterval (half) : exec (.refreshInterval half) s = execRefreshInterval half s := rfl
theorem exec_chmapSet (h kind action index) : exec (.chmapSet h kind action index) s = execChmapSet h kind action index s := rfl
theorem exec_retrainDone (bad) : exec (.retrainDone bad) s = execRetrainDone bad s := rfl
theorem exec_kvRefill (h mask) : exec (.kvRefill h mask) s = execKvRefill h mask s := rfl
theorem exec_attentionCall (core hit) : exec (.attentionCall core hit) s = execAttentionCall core hit s := rfl
theorem exec_nop (cl ch mismatch) : exec (.nop cl ch mismatch) s = execNop cl ch mismatch s := rfl
theorem exec_copy (cl ch mismatch) : exec (.copy cl ch mismatch) s = execCopy cl ch mismatch s := rfl
theorem exec_gather (cl ch mismatch) : exec (.gather cl ch mismatch) s = execGather cl ch mismatch s := rfl
theorem exec_scatter (cl ch mismatch) : exec (.scatter cl ch mismatch) s = execScatter cl ch mismatch s := rfl
theorem exec_pageAppend (cl ch mismatch) : exec (.pageAppend cl ch mismatch) s = execPageAppend cl ch mismatch s := rfl
theorem exec_pageCow (cl ch mismatch) : exec (.pageCow cl ch mismatch) s = execPageCow cl ch mismatch s := rfl
theorem exec_pageShare (cl ch mismatch) : exec (.pageShare cl ch mismatch) s = execPageShare cl ch mismatch s := rfl
theorem exec_pageFree (cl ch mismatch) : exec (.pageFree cl ch mismatch) s = execPageFree cl ch mismatch s := rfl
theorem exec_treeWalk (cl ch mismatch) : exec (.treeWalk cl ch mismatch) s = execTreeWalk cl ch mismatch s := rfl
theorem exec_topkRoute (cl ch mismatch) : exec (.topkRoute cl ch mismatch) s = execTopkRoute cl ch mismatch s := rfl
theorem exec_hostWindow (cl ch mismatch) : exec (.hostWindow cl ch mismatch) s = execHostWindow cl ch mismatch s := rfl
theorem exec_pageUnitTake (cl) : exec (.pageUnitTake cl) s = execPageUnitTake cl s := rfl
theorem exec_descriptorComplete (cl ch) : exec (.descriptorComplete cl ch) s = execDescriptorComplete cl ch s := rfl
theorem exec_wvlDisable (cl ch) : exec (.wvlDisable cl ch) s = execWvlDisable cl ch s := rfl
theorem exec_wvlEnable (cl ch) : exec (.wvlEnable cl ch) s = execWvlEnable cl ch s := rfl
theorem exec_wvlClear (cl ch) : exec (.wvlClear cl ch) s = execWvlClear cl ch s := rfl
theorem exec_access (stk ch hits) : exec (.access stk ch hits) s = execAccess stk ch hits s := rfl
theorem exec_refwin (stk ch hits) : exec (.refwin stk ch hits) s = execRefwin stk ch hits s := rfl
theorem exec_svc (stk ch hits) : exec (.svc stk ch hits) s = execSvc stk ch hits s := rfl
theorem exec_redopen (stk ch hits) : exec (.redopen stk ch hits) s = execRedopen stk ch hits s := rfl
theorem exec_redclose (stk ch hits) : exec (.redclose stk ch hits) s = execRedclose stk ch hits s := rfl
theorem exec_reductionDeadline (stk ch) : exec (.reductionDeadline stk ch) s = execReductionDeadline stk ch s := rfl
theorem exec_lease (stk ch hits) : exec (.lease stk ch hits) s = execLease stk ch hits s := rfl
theorem exec_bcast (stk ch hits) : exec (.bcast stk ch hits) s = execBcast stk ch hits s := rfl
theorem exec_leaseWindowEnd (stk ch) : exec (.leaseWindowEnd stk ch) s = execLeaseWindowEnd stk ch s := rfl
theorem exec_cacheLaneAccess (stk lane) : exec (.cacheLaneAccess stk lane) s = execCacheLaneAccess stk lane s := rfl
theorem exec_sideReservedSlot (stk ch) : exec (.sideReservedSlot stk ch) s = execSideReservedSlot stk ch s := rfl
theorem exec_scbCtlWrite (stk en) : exec (.scbCtlWrite stk en) s = execScbCtlWrite stk en s := rfl
theorem exec_flitLaunch (m d) : exec (.flitLaunch m d) s = execFlitLaunch m d s := rfl
theorem exec_dataFlit (m d corrupt) : exec (.dataFlit m d corrupt) s = execDataFlit m d corrupt s := rfl
theorem exec_idleFlit (m d bad) : exec (.idleFlit m d bad) s = execIdleFlit m d bad s := rfl
theorem exec_widthchkFlit (m d code) : exec (.widthchkFlit m d code) s = execWidthchkFlit m d code s := rfl
theorem exec_lineDue (m d) : exec (.lineDue m d) s = execLineDue m d s := rfl
theorem exec_replayStallPoint (m d) : exec (.replayStallPoint m d) s = execReplayStallPoint m d s := rfl
theorem exec_lateLaunch (m d) : exec (.lateLaunch m d) s = execLateLaunch m d s := rfl
theorem exec_replayTimeout (m d) : exec (.replayTimeout m d) s = execReplayTimeout m d s := rfl
theorem exec_stallLaneFrame (d err0 err1) : exec (.stallLaneFrame d err0 err1) s = execStallLaneFrame d err0 err1 s := rfl
theorem exec_linkTrainDone (m fail0 fail1 f0 f1) : exec (.linkTrainDone m fail0 fail1 f0 f1) s = execLinkTrainDone m fail0 fail1 f0 f1 s := rfl
theorem exec_linkTrainTimeout (m) : exec (.linkTrainTimeout m) s = execLinkTrainTimeout m s := rfl
theorem exec_fastRetrainDone (m) : exec (.fastRetrainDone m) s = execFastRetrainDone m s := rfl
theorem exec_itlRetrain (m) : exec (.itlRetrain m) s = execItlRetrain m s := rfl
theorem exec_itlFence (m) : exec (.itlFence m) s = execItlFence m s := rfl
theorem exec_ethLinkChange (p rate) : exec (.ethLinkChange p rate) s = execEthLinkChange p rate s := rfl
theorem exec_pfcFrame (p enable time) : exec (.pfcFrame p enable time) s = execPfcFrame p enable time s := rfl
theorem exec_arp (p v6 a) : exec (.arp p v6 a) s = execArp p v6 a s := rfl
theorem exec_cmReq (p x) : exec (.cmReq p x) s = execCmReq p x s := rfl
theorem exec_cmDreq (q) : exec (.cmDreq q) s = execCmDreq q s := rfl
theorem exec_rdmaWrite (q va rkey ce d) : exec (.rdmaWrite q va rkey ce d) s = execRdmaWrite q va rkey ce d s := rfl
theorem exec_rdmaRead (q va rkey ce len) : exec (.rdmaRead q va rkey ce len) s = execRdmaRead q va rkey ce len s := rfl
theorem exec_qpError (q) : exec (.qpError q) s = execQpError q s := rfl
theorem exec_hostLineTimeout : exec (.hostLineTimeout) s = execHostLineTimeout s := rfl
theorem exec_sessionOpen (h) : exec (.sessionOpen h) s = execSessionOpen h s := rfl
theorem exec_sessionProof (h tag) : exec (.sessionProof h tag) s = execSessionProof h tag s := rfl
theorem exec_sessionClose (h) : exec (.sessionClose h) s = execSessionClose h s := rfl
theorem exec_eventCfg (h minsev) : exec (.eventCfg h minsev) s = execEventCfg h minsev s := rfl
theorem exec_nonceLapse (q) : exec (.nonceLapse q) s = execNonceLapse q s := rfl
theorem exec_authlockExpire (q) : exec (.authlockExpire q) s = execAuthlockExpire q s := rfl
theorem exec_regRead (h addr n) : exec (.regRead h addr n) s = execRegRead h addr n s := rfl
theorem exec_regWrite (h addr vs) : exec (.regWrite h addr vs) s = execRegWrite h addr vs s := rfl
theorem exec_registerWrite (addr v) : exec (.registerWrite addr v) s = execRegisterWrite addr v s := rfl
theorem exec_errorRecordClear (addr) : exec (.errorRecordClear addr) s = execErrorRecordClear addr s := rfl
theorem exec_counterClear (addr v) : exec (.counterClear addr v) s = execCounterClear addr v s := rfl
theorem exec_snsClear (all inst) : exec (.snsClear all inst) s = execSnsClear all inst s := rfl
theorem exec_memRead (h addr n) : exec (.memRead h addr n) s = execMemRead h addr n s := rfl
theorem exec_moltHalf (h half commit) : exec (.moltHalf h half commit) s = execMoltHalf h half commit s := rfl
theorem exec_lbistRun (h half pmask) : exec (.lbistRun h half pmask) s = execLbistRun h half pmask s := rfl
theorem exec_licenceInstall (h d) : exec (.licenceInstall h d) s = execLicenceInstall h d s := rfl
theorem exec_licenceLapse (k) : exec (.licenceLapse k) s = execLicenceLapse k s := rfl
theorem exec_svctimeTick : exec (.svctimeTick) s = execSvctimeTick s := rfl
theorem exec_bbrRead (h first count) : exec (.bbrRead h first count) s = execBbrRead h first count s := rfl
theorem exec_bbrAck (h seq) : exec (.bbrAck h seq) s = execBbrAck h seq s := rfl
theorem exec_bbrProgram (result) : exec (.bbrProgram result) s = execBbrProgram result s := rfl
theorem exec_bbrErase (dev good) : exec (.bbrErase dev good) s = execBbrErase dev good s := rfl
theorem exec_pairMode (h mode role path flags relay uid jbuf jlen) : exec (.pairMode h mode role path flags relay uid jbuf jlen) s = execPairMode h mode role path flags relay uid jbuf jlen s := rfl
theorem exec_pairSeekTimeout : exec (.pairSeekTimeout) s = execPairSeekTimeout s := rfl
theorem exec_heartbeatSend : exec (.heartbeatSend) s = execHeartbeatSend s := rfl
theorem exec_heartbeat (h x) : exec (.heartbeat h x) s = execHeartbeat h x s := rfl
theorem exec_heartbeatMiss : exec (.heartbeatMiss) s = execHeartbeatMiss s := rfl
theorem exec_notice (h cause) : exec (.notice h cause) s = execNotice h cause s := rfl
theorem exec_hash (h hash pois) : exec (.hash h hash pois) s = execHash h hash pois s := rfl
theorem exec_stepHash : exec (.stepHash) s = execStepHash s := rfl
theorem exec_input (h entries) : exec (.input h entries) s = execInput h entries s := rfl
theorem exec_inend (h count cond) : exec (.inend h count cond) s = execInend h count cond s := rfl
theorem exec_inputRecordWrite : exec (.inputRecordWrite) s = execInputRecordWrite s := rfl
theorem exec_jline (h rs) : exec (.jline h rs) s = execJline h rs s := rfl
theorem exec_jreg (h core free defer reserve live) : exec (.jreg h core free defer reserve live) s = execJreg h core free defer reserve live s := rfl
theorem exec_jend (h frames base) : exec (.jend h frames base) s = execJend h frames base s := rfl
theorem exec_sync (h rs) : exec (.sync h rs) s = execSync h rs s := rfl
theorem exec_railSample (x) : exec (.railSample x) s = execRailSample x s := rfl
theorem exec_powerFail (cause v0 v1) : exec (.powerFail cause v0 v1) s = execPowerFail cause v0 v1 s := rfl
theorem exec_regulatorFail (pi r vret) : exec (.regulatorFail pi r vret) s = execRegulatorFail pi r vret s := rfl
theorem exec_droop (pi r code) : exec (.droop pi r code) s = execDroop pi r code s := rfl
theorem exec_chrysalisEnter (pi) : exec (.chrysalisEnter pi) s = execChrysalisEnter pi s := rfl
theorem exec_chrysalisExit (pi) : exec (.chrysalisExit pi) s = execChrysalisExit pi s := rfl
theorem exec_chrysalisPhaseEnd (pi) : exec (.chrysalisPhaseEnd pi) s = execChrysalisPhaseEnd pi s := rfl
theorem exec_thermalEval (x) : exec (.thermalEval x) s = execThermalEval x s := rfl
theorem exec_trayPost (b pm pec) : exec (.trayPost b pm pec) s = execTrayPost b pm pec s := rfl
theorem exec_coolStale : exec (.coolStale) s = execCoolStale s := rfl
theorem exec_powerCapEval (pm) : exec (.powerCapEval pm) s = execPowerCapEval pm s := rfl
theorem exec_aonRemoved : exec (.aonRemoved) s = execAonRemoved s := rfl
theorem exec_bringup (testMode) : exec (.bringup testMode) s = execBringup testMode s := rfl
theorem exec_phaseTimeout (x) : exec (.phaseTimeout x) s = execPhaseTimeout x s := rfl
theorem exec_coldReset : exec (.coldReset) s = execColdReset s := rfl
theorem exec_warmReset (h) : exec (.warmReset h) s = execWarmReset h s := rfl
theorem exec_warmResetPin : exec (.warmResetPin) s = execWarmResetPin s := rfl
theorem exec_halfReset (h half) : exec (.halfReset h half) s = execHalfReset h half s := rfl
theorem exec_pllUnlock (half) : exec (.pllUnlock half) s = execPllUnlock half s := rfl
theorem exec_status : exec (.status) s = execStatus s := rfl
theorem exec_telem : exec (.telem) s = execTelem s := rfl
theorem exec_keySet (key pres pec) : exec (.keySet key pres pec) s = execKeySet key pres pec s := rfl
theorem exec_keyClear (pres pec) : exec (.keyClear pres pec) s = execKeyClear pres pec s := rfl
theorem exec_bbrInfo : exec (.bbrInfo) s = execBbrInfo s := rfl
theorem exec_bbrSel (seq pec) : exec (.bbrSel seq pec) s = execBbrSel seq pec s := rfl
theorem exec_bbrEntry : exec (.bbrEntry) s = execBbrEntry s := rfl
theorem exec_regSel (addr pec) : exec (.regSel addr pec) s = execRegSel addr pec s := rfl
theorem exec_regVal : exec (.regVal) s = execRegVal s := rfl
theorem exec_ethAddr (p ip4 ip6 pec) : exec (.ethAddr p ip4 ip6 pec) s = execEthAddr p ip4 ip6 pec s := rfl
theorem exec_smbusTimeout : exec (.smbusTimeout) s = execSmbusTimeout s := rfl
theorem exec_extest (pins shift) : exec (.extest pins shift) s = execExtest pins shift s := rfl
theorem exec_idcode : exec (.idcode) s = execIdcode s := rfl
theorem exec_samplePreload (pins shift) : exec (.samplePreload pins shift) s = execSamplePreload pins shift s := rfl
theorem exec_highz (shift) : exec (.highz shift) s = execHighz shift s := rfl
theorem exec_clamp (shift) : exec (.clamp shift) s = execClamp shift s := rfl
theorem exec_bypass (shift) : exec (.bypass shift) s = execBypass shift s := rfl
theorem exec_jtagReset : exec (.jtagReset) s = execJtagReset s := rfl
theorem exec_aonInRange (straps) : exec (.aonInRange straps) s = execAonInRange straps s := rfl
theorem exec_alertResponse : exec (.alertResponse) s = execAlertResponse s := rfl
theorem exec_laneLockLost (m d l) : exec (.laneLockLost m d l) s = execLaneLockLost m d l s := rfl
theorem exec_framingLost (m) : exec (.framingLost m) s = execFramingLost m s := rfl
theorem exec_badFrame : exec (.badFrame) s = execBadFrame s := rfl
theorem exec_malformedMessage (h op) : exec (.malformedMessage h op) s = execMalformedMessage h op s := rfl
theorem exec_invalidRequest (q) : exec (.invalidRequest q) s = execInvalidRequest q s := rfl
theorem exec_discardedFrame (p pause) : exec (.discardedFrame p pause) s = execDiscardedFrame p pause s := rfl
theorem exec_cmRtu (q) : exec (.cmRtu q) s = execCmRtu q s := rfl
theorem exec_roceAck (q kind n) : exec (.roceAck q kind n) s = execRoceAck q kind n s := rfl
theorem exec_localAckTimeout (q) : exec (.localAckTimeout q) s = execLocalAckTimeout q s := rfl
theorem exec_ethCtlWrite (p v) : exec (.ethCtlWrite p v) s = execEthCtlWrite p v s := rfl
theorem exec_moltDone (x) : exec (.moltDone x) s = execMoltDone x s := rfl
theorem exec_lbistDone (fails) : exec (.lbistDone fails) s = execLbistDone fails s := rfl
theorem exec_halfResetDone (x) : exec (.halfResetDone x) s = execHalfResetDone x s := rfl
theorem exec_warmResetDone : exec (.warmResetDone) s = execWarmResetDone s := rfl
theorem exec_phaseDone (x) : exec (.phaseDone x) s = execPhaseDone x s := rfl

/-- Every command is an effect under a condition: nothing faults, nothing is refused. -/
theorem exec_guarded (c : Instr) (s : State) : ∃ (g : Bool) (f : State → State), exec c s = s.when g f := by
  cases c with
  | bundle x => rw [exec_bundle]; unfold execBundle; exact ⟨_, _, rfl⟩
  | freezeBegin => rw [exec_freezeBegin]; unfold execFreezeBegin; exact ⟨_, _, rfl⟩
  | stallRelease src half unit => rw [exec_stallRelease]; unfold execStallRelease; exact ⟨_, _, rfl⟩
  | freezeLift => rw [exec_freezeLift]; unfold execFreezeLift; exact ⟨_, _, rfl⟩
  | gatingWindow => rw [exec_gatingWindow]; unfold execGatingWindow; exact ⟨_, _, rfl⟩
  | stallTimeout => rw [exec_stallTimeout]; unfold execStallTimeout; exact ⟨_, _, rfl⟩
  | debugStep n => rw [exec_debugStep]; unfold execDebugStep; exact ⟨_, _, rfl⟩
  | debugRefreeze => rw [exec_debugRefreeze]; unfold execDebugRefreeze; exact ⟨_, _, rfl⟩
  | streamLoad h id => rw [exec_streamLoad]; unfold execStreamLoad; exact ⟨_, _, rfl⟩
  | streamStart h force => rw [exec_streamStart]; unfold execStreamStart; exact ⟨_, _, rfl⟩
  | startCode => rw [exec_startCode]; unfold execStartCode; exact ⟨_, _, rfl⟩
  | streamHalt h mode => rw [exec_streamHalt]; unfold execStreamHalt; exact ⟨_, _, rfl⟩
  | streamResume h => rw [exec_streamResume]; unfold execStreamResume; exact ⟨_, _, rfl⟩
  | mailboxWrite slot off d => rw [exec_mailboxWrite]; unfold execMailboxWrite; exact ⟨_, _, rfl⟩
  | mailboxPresent slot => rw [exec_mailboxPresent]; unfold execMailboxPresent; exact ⟨_, _, rfl⟩
  | arrRowmapWrite core v => rw [exec_arrRowmapWrite]; unfold execArrRowmapWrite; exact ⟨_, _, rfl⟩
  | refreshInterval half => rw [exec_refreshInterval]; unfold execRefreshInterval; exact ⟨_, _, rfl⟩
  | chmapSet h kind action index => rw [exec_chmapSet]; unfold execChmapSet; exact ⟨_, _, rfl⟩
  | retrainDone bad => rw [exec_retrainDone]; unfold execRetrainDone; exact ⟨_, _, rfl⟩
  | kvRefill h mask => rw [exec_kvRefill]; unfold execKvRefill; exact ⟨_, _, rfl⟩
  | attentionCall core hit => rw [exec_attentionCall]; unfold execAttentionCall; exact ⟨_, _, rfl⟩
  | nop cl ch mismatch => rw [exec_nop]; unfold execNop startOp; exact ⟨_, _, rfl⟩
  | copy cl ch mismatch => rw [exec_copy]; unfold execCopy startOp; exact ⟨_, _, rfl⟩
  | gather cl ch mismatch => rw [exec_gather]; unfold execGather startOp; exact ⟨_, _, rfl⟩
  | scatter cl ch mismatch => rw [exec_scatter]; unfold execScatter startOp; exact ⟨_, _, rfl⟩
  | pageAppend cl ch mismatch => rw [exec_pageAppend]; unfold execPageAppend startOp; exact ⟨_, _, rfl⟩
  | pageCow cl ch mismatch => rw [exec_pageCow]; unfold execPageCow startOp; exact ⟨_, _, rfl⟩
  | pageShare cl ch mismatch => rw [exec_pageShare]; unfold execPageShare startOp; exact ⟨_, _, rfl⟩
  | pageFree cl ch mismatch => rw [exec_pageFree]; unfold execPageFree startOp; exact ⟨_, _, rfl⟩
  | treeWalk cl ch mismatch => rw [exec_treeWalk]; unfold execTreeWalk startOp; exact ⟨_, _, rfl⟩
  | topkRoute cl ch mismatch => rw [exec_topkRoute]; unfold execTopkRoute startOp; exact ⟨_, _, rfl⟩
  | hostWindow cl ch mismatch => rw [exec_hostWindow]; unfold execHostWindow startOp; exact ⟨_, _, rfl⟩
  | pageUnitTake cl => rw [exec_pageUnitTake]; unfold execPageUnitTake; exact ⟨_, _, rfl⟩
  | descriptorComplete cl ch => rw [exec_descriptorComplete]; unfold execDescriptorComplete; exact ⟨_, _, rfl⟩
  | wvlDisable cl ch => rw [exec_wvlDisable]; unfold execWvlDisable; exact ⟨_, _, rfl⟩
  | wvlEnable cl ch => rw [exec_wvlEnable]; unfold execWvlEnable; exact ⟨_, _, rfl⟩
  | wvlClear cl ch => rw [exec_wvlClear]; unfold execWvlClear; exact ⟨_, _, rfl⟩
  | access stk ch hits => rw [exec_access]; unfold execAccess slotOf; exact ⟨_, _, rfl⟩
  | refwin stk ch hits => rw [exec_refwin]; unfold execRefwin slotOf; exact ⟨_, _, rfl⟩
  | svc stk ch hits => rw [exec_svc]; unfold execSvc slotOf; exact ⟨_, _, rfl⟩
  | redopen stk ch hits => rw [exec_redopen]; unfold execRedopen slotOf; exact ⟨_, _, rfl⟩
  | redclose stk ch hits => rw [exec_redclose]; unfold execRedclose slotOf; exact ⟨_, _, rfl⟩
  | reductionDeadline stk ch => rw [exec_reductionDeadline]; unfold execReductionDeadline; exact ⟨_, _, rfl⟩
  | lease stk ch hits => rw [exec_lease]; unfold execLease slotOf; exact ⟨_, _, rfl⟩
  | bcast stk ch hits => rw [exec_bcast]; unfold execBcast slotOf; exact ⟨_, _, rfl⟩
  | leaseWindowEnd stk ch => rw [exec_leaseWindowEnd]; unfold execLeaseWindowEnd; exact ⟨_, _, rfl⟩
  | cacheLaneAccess stk lane => rw [exec_cacheLaneAccess]; unfold execCacheLaneAccess; exact ⟨_, _, rfl⟩
  | sideReservedSlot stk ch => rw [exec_sideReservedSlot]; unfold execSideReservedSlot; exact ⟨_, _, rfl⟩
  | scbCtlWrite stk en => rw [exec_scbCtlWrite]; unfold execScbCtlWrite; exact ⟨_, _, rfl⟩
  | flitLaunch m d => rw [exec_flitLaunch]; unfold execFlitLaunch; exact ⟨_, _, rfl⟩
  | dataFlit m d corrupt => rw [exec_dataFlit]; unfold execDataFlit; exact ⟨_, _, rfl⟩
  | idleFlit m d bad => rw [exec_idleFlit]; unfold execIdleFlit; exact ⟨_, _, rfl⟩
  | widthchkFlit m d code => rw [exec_widthchkFlit]; unfold execWidthchkFlit; exact ⟨_, _, rfl⟩
  | lineDue m d => rw [exec_lineDue]; unfold execLineDue; exact ⟨_, _, rfl⟩
  | replayStallPoint m d => rw [exec_replayStallPoint]; unfold execReplayStallPoint; exact ⟨_, _, rfl⟩
  | lateLaunch m d => rw [exec_lateLaunch]; unfold execLateLaunch; exact ⟨_, _, rfl⟩
  | replayTimeout m d => rw [exec_replayTimeout]; unfold execReplayTimeout; exact ⟨_, _, rfl⟩
  | stallLaneFrame d err0 err1 => rw [exec_stallLaneFrame]; unfold execStallLaneFrame; exact ⟨_, _, rfl⟩
  | linkTrainDone m fail0 fail1 f0 f1 => rw [exec_linkTrainDone]; unfold execLinkTrainDone; exact ⟨_, _, rfl⟩
  | linkTrainTimeout m => rw [exec_linkTrainTimeout]; unfold execLinkTrainTimeout; exact ⟨_, _, rfl⟩
  | fastRetrainDone m => rw [exec_fastRetrainDone]; unfold execFastRetrainDone; exact ⟨_, _, rfl⟩
  | itlRetrain m => rw [exec_itlRetrain]; unfold execItlRetrain; exact ⟨_, _, rfl⟩
  | itlFence m => rw [exec_itlFence]; unfold execItlFence; exact ⟨_, _, rfl⟩
  | ethLinkChange p rate => rw [exec_ethLinkChange]; unfold execEthLinkChange; exact ⟨_, _, rfl⟩
  | pfcFrame p enable time => rw [exec_pfcFrame]; unfold execPfcFrame; exact ⟨_, _, rfl⟩
  | arp p v6 a => rw [exec_arp]; unfold execArp; exact ⟨_, _, rfl⟩
  | cmReq p x => rw [exec_cmReq]; unfold execCmReq; exact ⟨_, _, rfl⟩
  | cmDreq q => rw [exec_cmDreq]; unfold execCmDreq; exact ⟨_, _, rfl⟩
  | rdmaWrite q va rkey ce d => rw [exec_rdmaWrite]; unfold execRdmaWrite; exact ⟨_, _, rfl⟩
  | rdmaRead q va rkey ce len => rw [exec_rdmaRead]; unfold execRdmaRead; exact ⟨_, _, rfl⟩
  | qpError q => rw [exec_qpError]; unfold execQpError; exact ⟨_, _, rfl⟩
  | hostLineTimeout => rw [exec_hostLineTimeout]; unfold execHostLineTimeout; exact ⟨_, _, rfl⟩
  | sessionOpen h => rw [exec_sessionOpen]; unfold execSessionOpen; exact ⟨_, _, rfl⟩
  | sessionProof h tag => rw [exec_sessionProof]; unfold execSessionProof; exact ⟨_, _, rfl⟩
  | sessionClose h => rw [exec_sessionClose]; unfold execSessionClose; exact ⟨_, _, rfl⟩
  | eventCfg h minsev => rw [exec_eventCfg]; unfold execEventCfg; exact ⟨_, _, rfl⟩
  | nonceLapse q => rw [exec_nonceLapse]; unfold execNonceLapse; exact ⟨_, _, rfl⟩
  | authlockExpire q => rw [exec_authlockExpire]; unfold execAuthlockExpire; exact ⟨_, _, rfl⟩
  | regRead h addr n => rw [exec_regRead]; unfold execRegRead; exact ⟨_, _, rfl⟩
  | regWrite h addr vs => rw [exec_regWrite]; unfold execRegWrite; exact ⟨_, _, rfl⟩
  | registerWrite addr v => rw [exec_registerWrite]; unfold execRegisterWrite; exact ⟨_, _, rfl⟩
  | errorRecordClear addr => rw [exec_errorRecordClear]; unfold execErrorRecordClear; split <;> exact ⟨_, _, rfl⟩
  | counterClear addr v => rw [exec_counterClear]; unfold execCounterClear; split <;> exact ⟨_, _, rfl⟩
  | snsClear all inst => rw [exec_snsClear]; unfold execSnsClear; exact ⟨_, _, rfl⟩
  | memRead h addr n => rw [exec_memRead]; unfold execMemRead; exact ⟨_, _, rfl⟩
  | moltHalf h half commit => rw [exec_moltHalf]; unfold execMoltHalf; exact ⟨_, _, rfl⟩
  | lbistRun h half pmask => rw [exec_lbistRun]; unfold execLbistRun; exact ⟨_, _, rfl⟩
  | licenceInstall h d => rw [exec_licenceInstall]; unfold execLicenceInstall; exact ⟨_, _, rfl⟩
  | licenceLapse k => rw [exec_licenceLapse]; unfold execLicenceLapse; exact ⟨_, _, rfl⟩
  | svctimeTick => rw [exec_svctimeTick]; unfold execSvctimeTick; exact ⟨_, _, rfl⟩
  | bbrRead h first count => rw [exec_bbrRead]; unfold execBbrRead; exact ⟨_, _, rfl⟩
  | bbrAck h seq => rw [exec_bbrAck]; unfold execBbrAck; exact ⟨_, _, rfl⟩
  | bbrProgram result => rw [exec_bbrProgram]; unfold execBbrProgram; exact ⟨_, _, rfl⟩
  | bbrErase dev good => rw [exec_bbrErase]; unfold execBbrErase; exact ⟨_, _, rfl⟩
  | pairMode h mode role path flags relay uid jbuf jlen => rw [exec_pairMode]; unfold execPairMode; exact ⟨_, _, rfl⟩
  | pairSeekTimeout => rw [exec_pairSeekTimeout]; unfold execPairSeekTimeout; exact ⟨_, _, rfl⟩
  | heartbeatSend => rw [exec_heartbeatSend]; unfold execHeartbeatSend; exact ⟨_, _, rfl⟩
  | heartbeat h x => rw [exec_heartbeat]; unfold execHeartbeat; exact ⟨_, _, rfl⟩
  | heartbeatMiss => rw [exec_heartbeatMiss]; unfold execHeartbeatMiss; exact ⟨_, _, rfl⟩
  | notice h cause => rw [exec_notice]; unfold execNotice frameRow; exact ⟨_, _, rfl⟩
  | hash h hash pois => rw [exec_hash]; unfold execHash frameRow; exact ⟨_, _, rfl⟩
  | stepHash => rw [exec_stepHash]; unfold execStepHash; exact ⟨_, _, rfl⟩
  | input h entries => rw [exec_input]; unfold execInput frameRow; exact ⟨_, _, rfl⟩
  | inend h count cond => rw [exec_inend]; unfold execInend frameRow; exact ⟨_, _, rfl⟩
  | inputRecordWrite => rw [exec_inputRecordWrite]; unfold execInputRecordWrite; exact ⟨_, _, rfl⟩
  | jline h rs => rw [exec_jline]; unfold execJline journalRow frameRow; exact ⟨_, _, rfl⟩
  | jreg h core free defer reserve live => rw [exec_jreg]; unfold execJreg journalRow frameRow; exact ⟨_, _, rfl⟩
  | jend h frames base => rw [exec_jend]; unfold execJend journalRow frameRow; exact ⟨_, _, rfl⟩
  | sync h rs => rw [exec_sync]; unfold execSync journalRow frameRow; exact ⟨_, _, rfl⟩
  | railSample x => rw [exec_railSample]; unfold execRailSample; exact ⟨_, _, rfl⟩
  | powerFail cause v0 v1 => rw [exec_powerFail]; unfold execPowerFail; exact ⟨_, _, rfl⟩
  | regulatorFail pi r vret => rw [exec_regulatorFail]; unfold execRegulatorFail; exact ⟨_, _, rfl⟩
  | droop pi r code => rw [exec_droop]; unfold execDroop; exact ⟨_, _, rfl⟩
  | chrysalisEnter pi => rw [exec_chrysalisEnter]; unfold execChrysalisEnter; exact ⟨_, _, rfl⟩
  | chrysalisExit pi => rw [exec_chrysalisExit]; unfold execChrysalisExit; exact ⟨_, _, rfl⟩
  | chrysalisPhaseEnd pi => rw [exec_chrysalisPhaseEnd]; unfold execChrysalisPhaseEnd; exact ⟨_, _, rfl⟩
  | thermalEval x => rw [exec_thermalEval]; unfold execThermalEval; exact ⟨_, _, rfl⟩
  | trayPost b pm pec => rw [exec_trayPost]; unfold execTrayPost; exact ⟨_, _, rfl⟩
  | coolStale => rw [exec_coolStale]; unfold execCoolStale; exact ⟨_, _, rfl⟩
  | powerCapEval pm => rw [exec_powerCapEval]; unfold execPowerCapEval; exact ⟨_, _, rfl⟩
  | aonRemoved => rw [exec_aonRemoved]; unfold execAonRemoved; exact ⟨_, _, rfl⟩
  | bringup testMode => rw [exec_bringup]; unfold execBringup; exact ⟨_, _, rfl⟩
  | phaseTimeout x => rw [exec_phaseTimeout]; unfold execPhaseTimeout; exact ⟨_, _, rfl⟩
  | coldReset => rw [exec_coldReset]; unfold execColdReset; exact ⟨_, _, rfl⟩
  | warmReset h => rw [exec_warmReset]; unfold execWarmReset; exact ⟨_, _, rfl⟩
  | warmResetPin => rw [exec_warmResetPin]; unfold execWarmResetPin; exact ⟨_, _, rfl⟩
  | halfReset h half => rw [exec_halfReset]; unfold execHalfReset; exact ⟨_, _, rfl⟩
  | pllUnlock half => rw [exec_pllUnlock]; unfold execPllUnlock; exact ⟨_, _, rfl⟩
  | status => rw [exec_status]; unfold execStatus; exact ⟨_, _, rfl⟩
  | telem => rw [exec_telem]; unfold execTelem; exact ⟨_, _, rfl⟩
  | keySet key pres pec => rw [exec_keySet]; unfold execKeySet; exact ⟨_, _, rfl⟩
  | keyClear pres pec => rw [exec_keyClear]; unfold execKeyClear; exact ⟨_, _, rfl⟩
  | bbrInfo => rw [exec_bbrInfo]; unfold execBbrInfo; exact ⟨_, _, rfl⟩
  | bbrSel seq pec => rw [exec_bbrSel]; unfold execBbrSel; exact ⟨_, _, rfl⟩
  | bbrEntry => rw [exec_bbrEntry]; unfold execBbrEntry; exact ⟨_, _, rfl⟩
  | regSel addr pec => rw [exec_regSel]; unfold execRegSel; exact ⟨_, _, rfl⟩
  | regVal => rw [exec_regVal]; unfold execRegVal; exact ⟨_, _, rfl⟩
  | ethAddr p ip4 ip6 pec => rw [exec_ethAddr]; unfold execEthAddr; exact ⟨_, _, rfl⟩
  | smbusTimeout => rw [exec_smbusTimeout]; unfold execSmbusTimeout; exact ⟨_, _, rfl⟩
  | extest pins shift => rw [exec_extest]; unfold execExtest; exact ⟨_, _, rfl⟩
  | idcode => rw [exec_idcode]; unfold execIdcode; exact ⟨_, _, rfl⟩
  | samplePreload pins shift => rw [exec_samplePreload]; unfold execSamplePreload; exact ⟨_, _, rfl⟩
  | highz shift => rw [exec_highz]; unfold execHighz; exact ⟨_, _, rfl⟩
  | clamp shift => rw [exec_clamp]; unfold execClamp; exact ⟨_, _, rfl⟩
  | bypass shift => rw [exec_bypass]; unfold execBypass; exact ⟨_, _, rfl⟩
  | jtagReset => rw [exec_jtagReset]; unfold execJtagReset; exact ⟨_, _, rfl⟩
  | aonInRange straps => rw [exec_aonInRange]; unfold execAonInRange; exact ⟨_, _, rfl⟩
  | alertResponse => rw [exec_alertResponse]; unfold execAlertResponse; exact ⟨_, _, rfl⟩
  | laneLockLost m d l => rw [exec_laneLockLost]; unfold execLaneLockLost; exact ⟨_, _, rfl⟩
  | framingLost m => rw [exec_framingLost]; unfold execFramingLost; exact ⟨_, _, rfl⟩
  | badFrame => rw [exec_badFrame]; unfold execBadFrame; exact ⟨_, _, rfl⟩
  | malformedMessage h op => rw [exec_malformedMessage]; unfold execMalformedMessage; exact ⟨_, _, rfl⟩
  | invalidRequest q => rw [exec_invalidRequest]; unfold execInvalidRequest; exact ⟨_, _, rfl⟩
  | discardedFrame p pause => rw [exec_discardedFrame]; unfold execDiscardedFrame; exact ⟨_, _, rfl⟩
  | cmRtu q => rw [exec_cmRtu]; unfold execCmRtu; exact ⟨_, _, rfl⟩
  | roceAck q kind n => rw [exec_roceAck]; unfold execRoceAck; exact ⟨_, _, rfl⟩
  | localAckTimeout q => rw [exec_localAckTimeout]; unfold execLocalAckTimeout; exact ⟨_, _, rfl⟩
  | ethCtlWrite p v => rw [exec_ethCtlWrite]; unfold execEthCtlWrite; exact ⟨_, _, rfl⟩
  | moltDone x => rw [exec_moltDone]; unfold execMoltDone; exact ⟨_, _, rfl⟩
  | lbistDone fails => rw [exec_lbistDone]; unfold execLbistDone; exact ⟨_, _, rfl⟩
  | halfResetDone x => rw [exec_halfResetDone]; unfold execHalfResetDone; exact ⟨_, _, rfl⟩
  | warmResetDone => rw [exec_warmResetDone]; unfold execWarmResetDone; exact ⟨_, _, rfl⟩
  | phaseDone x => rw [exec_phaseDone]; unfold execPhaseDone; exact ⟨_, _, rfl⟩

end Sys2Proof.Machine
end

