-- ==== Sys2Proof/Laws/Memory.lean ====
section
/-!
SUPPORT. Every operation that writes memory keeps its canonical form.
-/
namespace Sys2Proof.Machine.State

theorem foldl_wf {α : Type} (f : State → α → State) (h : ∀ (s : State) (a : α), Memory.wf s.mem → Memory.wf (f s a).mem)
    (l : List α) : ∀ s : State, Memory.wf s.mem → Memory.wf (l.foldl f s).mem := by
  induction l with
  | nil => exact fun _ h => h
  | cons a l ih => exact fun s hs => ih (f s a) (h s a hs)

theorem putBytes_wf (s : State) (a : Nat) (bs : List Byte) (h : Memory.wf s.mem) : Memory.wf (s.putBytes a bs).mem :=
  smPuts_wf 0 _ _ h

theorem storeWord_wf (s : State) (nc w : Nat) (d : Line) (h : Memory.wf s.mem) : Memory.wf (s.storeWord nc w d).mem := by
  unfold storeWord
  exact putBytes_wf _ _ _ h

theorem zeroRange_wf (s : State) (a n : Nat) (h : Memory.wf s.mem) : Memory.wf (s.zeroRange a n).mem := smFilter_wf 0 _ _ _ h

theorem loseRange_wf (s : State) (a n : Nat) (h : Memory.wf s.mem) : Memory.wf (s.loseRange a n).mem := h

theorem clearCache_wf (s : State) (h : Memory.wf s.mem) : Memory.wf s.clearCache.mem := smFilter_wf 0 _ _ _ h

theorem mbxClear_wf (s : State) (h : Memory.wf s.mem) : Memory.wf s.mbxClear.mem := smFilter_wf 0 _ _ _ h

theorem mbxTake_wf (s : State) (p : MbxPend) (h : Memory.wf s.mem) : Memory.wf (s.mbxTake p).mem := putBytes_wf s _ _ h

theorem upset_wf (s : State) (a sym e : Nat) (h : Memory.wf s.mem) : Memory.wf (s.upset a sym e).mem := by
  unfold upset
  dsimp only
  split
  · exact h
  · exact smPut_wf 0 _ _ _ h

/-- What the poll of a block does to memory (R90, R93): the buffer is cleared, then the captured slots are copied into it. -/
theorem pollCopy_wf (s : State) (p : Host.Cell → Bool) (es : List (Nat × List Byte)) (h : Memory.wf s.mem) :
    Memory.wf (es.foldl (fun (s : State) e => s.putBytes (pollSlot e.1) e.2) { s with mem := s.mem.filter p }).mem := by
  refine foldl_wf _ (fun s e hs => putBytes_wf s _ _ hs) es _ ?_
  exact smFilter_wf 0 p _ _ h

/-! ### A read of a channel does nothing to memory: it corrects what it delivers, and queues the rewrite -/

theorem foldl_mem {α : Type} (f : State → α → State) (h : ∀ (s : State) (a : α), (f s a).mem = s.mem) (l : List α) :
    ∀ s : State, (l.foldl f s).mem = s.mem := by
  induction l with
  | nil => exact fun _ => rfl
  | cons a l ih => exact fun s => (ih (f s a)).trans (h s a)

@[simp] theorem chErr_mem (s : State) (c : Chan) (off st ca : Nat) : (s.chErr c off st ca).mem = s.mem := by
  unfold chErr; cases c <;> exact firstErr_mem ..

@[simp] theorem chCorr_mem (s : State) (c : Chan) : (s.chCorr c).mem = s.mem := by unfold chCorr; cases c <;> simp

@[simp] theorem chUnc_mem (s : State) (c : Chan) : (s.chUnc c).mem = s.mem := by unfold chUnc; cases c <;> simp

@[simp] theorem modChan_mem (s : State) (c : Chan) (f : VCh → VCh) : (s.modChan c f).mem = s.mem := rfl

@[simp] theorem mapOut_mem (s : State) (c : Chan) (x : Nat) : (s.mapOut c x).mem = s.mem := by
  unfold mapOut
  cases c <;> dsimp only <;> rw [modChan_mem, raise_mem, fset_mem, fset_mem]

@[simp] theorem failLine_mem (s : State) (c : Chan) (j x : Nat) : (s.failLine c j x).mem = s.mem := by
  unfold failLine
  dsimp only
  split
  · rfl
  · split
    · rw [mapOut_mem]
    · cases c <;> dsimp only <;> split <;> rw [raise_mem, fset_mem, fset_mem]

@[simp] theorem weakRow_mem (s : State) (n c b r : Nat) : (s.weakRow n c b r).mem = s.mem := by
  unfold weakRow
  dsimp only
  split
  · rfl
  · split
    · rw [raise_mem]
    · split
      · rw [mapOut_mem, raise_mem, rset_mem]
      · rw [raise_mem, rset_mem]

@[simp] theorem noteCorr_mem (s : State) (c : Chan) (off : Nat) : (s.noteCorr c off).mem = s.mem := by
  unfold noteCorr
  cases c with
  | side => rfl
  | vault =>
    dsimp only
    split <;> split <;> first | rw [weakRow_mem, setChan_mem] | rw [setChan_mem]

@[simp] theorem corrected_mem (s : State) (c : Chan) (off : Nat) (d : Line) (errs : List (Nat × Nat)) (sg : Option Nat) :
    (s.corrected c off d errs sg).mem = s.mem := by
  unfold corrected
  dsimp only
  rw [foldl_mem]
  · split <;> simp
  · intro s a; split <;> simp

@[simp] theorem readWord_mem (s : State) (c : Chan) (off : Nat) : (s.readWord c off).2.2.mem = s.mem := by
  unfold readWord
  dsimp only
  split <;> simp

@[simp] theorem scanWords_mem (s : State) (c : Chan) (off n : Nat) : (s.scanWords c off n).mem = s.mem := by
  unfold scanWords
  dsimp only
  rw [modChan_mem, modChan_mem, foldl_mem]
  intro s a; simp

@[simp] theorem reveal_mem (l : Line) : ∀ s : State, (s.reveal l).2.mem = s.mem := by
  induction l with
  | nil => exact fun _ => rfl
  | cons b l ih => intro s; cases b <;> exact ih _

theorem copyCells_wf (s : State) (h : Memory.wf s.mem) : Memory.wf s.copyCells.mem := smPuts_wf 0 _ _ (smFilter_wf 0 _ _ _ h)

theorem copyDecoded_wf (s : State) (k : Nat) (h : Memory.wf s.mem) : Memory.wf (s.copyDecoded k).mem := by
  unfold copyDecoded
  refine foldl_wf _ (fun s p hs => putBytes_wf _ _ _ (by rw [reveal_mem]; exact hs)) _ _ ?_
  split
  · rw [scanWords_mem]; exact h
  · exact h

theorem copyCommands_wf (s : State) (h : Memory.wf s.mem) : Memory.wf s.copyCommands.mem :=
  foldl_wf _ (fun s k hs => copyDecoded_wf s k hs) _ _ (copyCells_wf s h)

end Sys2Proof.Machine.State
end

