-- ==== Sys2Proof/Certificates/Slice0/Obligations.lean ====
section
/-!
DEFINITION. The statements about the block, for the provers. A statement about a command is about `exec` of it in every state that meets its
premises; `finish` delivers the events that are due (R537, R538). `RegsKept s t as` says that every register but those at `as`, and
but those in which the delivery of events counts, reads as before.
-/
open Sys2Proof Sys2Proof.Machine

/-! ### The queue, the events of a command, reset and memory -/

/-- O1. A step takes the command at the front of the queue and is `exec` of it on the state with the queue's rest. -/
def Obligations.FrontCommandRuns : Prop :=
  ∀ (c : Instr) (rest : List Instr) (s : State), s.pending = c :: rest → step s = exec c { s with pending := rest }

/-- O2. On an empty queue the block lets at most one CCLK cycle pass (DESIGN CHOICE, log entry 3): only the cycle count, the freeze with its requests,
the two stall counters and STR_STALLSRC (with the marks of its bits set in this SCLK cycle) move; where a cycle has passed, host lines that wait or
travel keep moving (R386), which does nothing where there are none or while no stream runs; and events whose SCLK cycle is over then are delivered
(R537, R538). -/
def Obligations.EmptyQueueTicks : Prop :=
  ∀ s : State, s.pending = [] → ∃ t : State,
    step s = .next (if t.cc = s.cc + 1 ∧ s.powered = true then t.hostTick else t).settle ∧ (t.cc = s.cc ∨ t.cc = s.cc + 1) ∧
    t = { s with cc := t.cc, stall := t.stall, regs := t.regs, w1c := t.w1c } ∧
    (s.running = false ∨ s.hq = [] ∧ s.mesh = [] → t.hostTick = t) ∧
    RegsKept s t [Reg.addr .STR_STALLCNT 0 0, Reg.addr .STR_GATECNT 0 0, Reg.addr .STR_STALLSRC 0 0]

/-- O3. Every command answers a next state in every state, and leaves the queue to `step`. -/
def Obligations.EveryCommandAnswersNext : Prop :=
  ∀ (c : Instr) (s : State), ∃ t, exec c s = .next t ∧ t.pending = s.pending

/-- O4. Whatever a step does, no event that is due waits after it (R537, R538): only events of the present SCLK cycle do, in the order of their
codes and SRC and at most 4,096 of them, and no error mark is left. -/
def Obligations.NoEventWaitsAfterAStep : Prop :=
  ∀ s t : State, Quiet s → step s = .next t → Quiet t

/-- O5. What reset leaves: the machine is quiet, in bring-up phase 0, IDLE, with no session and no command, and session numbers count from 1. -/
def Obligations.ResetLeavesTheBlockQuiet : Prop :=
  Quiet State.reset ∧ State.reset.pending = [] ∧ State.reset.mem = [] ∧ Memory.wf State.reset.mem = true ∧
  State.reset.str.st = .idle ∧ State.reset.phase = 0 ∧ State.reset.cmds = [] ∧ State.reset.sessions = [] ∧
  State.reset.fget F.ECP_SESSNEXT_NEXT = 1 ∧ State.reset.pst = PS.OFF ∧ State.reset.life.molt = none

/-- O6. A store reads back byte by byte, and every byte outside it reads as before.
Two canonical memories that read alike are the same data. -/
def Obligations.MemoryReadsBackWhatIsStored : Prop :=
  (∀ (s : State) (a : Nat) (bs : List Byte),
     (∀ i (h : i < bs.length), (s.putBytes a bs).byte (a + i) = bs[i]) ∧
     ∀ x, x < a ∨ a + bs.length ≤ x → (s.putBytes a bs).byte x = s.byte x) ∧
  (∀ m m' : List Host.Cell, Memory.wf m = true → Memory.wf m' = true → (∀ a, smGet 0 m a = smGet 0 m' a) → m = m')

/-- O7. R12, R13: where an address of each region lies, what of the regions is absent, and that nothing lies outside them. -/
def Obligations.RegionsAreLaidOut : Prop :=
  ∀ s : State,
    (∀ n c x, n < 1024 → c < 4 → x < 0x2000000 → placeOf (n * 0x8000000 + c * 0x2000000 + x) = .vault n c x) ∧
    (∀ n x, n < 1024 → x < 0x200000 → placeOf (0x4000000000 + n * 0x200000 + x) = .scratch n x ∧
      (0x180000 ≤ x → s.present (.scratch n x) = false)) ∧
    (∀ k c x, k < 8 → c < 32 → x < 0x80000000 → placeOf (0x10000000000 + k * 0x1000000000 + c * 0x80000000 + x) = .side k c x ∧
      (k < 4 → 0x60000000 ≤ x → s.present (.side k c x) = false) ∧
      (s.sskState k c = CH.ONLINE → 4 ≤ k ∨ x < 0x60000000 → s.present (.side k c x) = true)) ∧
    (∀ b x, b < 22 → x < 0x10000000 → placeOf (0x7F0000000000 + b * 0x10000000 + x) = .reg b x) ∧
    (∀ a, 0x2000000000 ≤ a → a < 0x4000000000 ∨ 0x4080000000 ≤ a → a < 0x10000000000 ∨ 0x18000000000 ≤ a →
      a < 0x7F0000000000 ∨ 0x7F0160000000 ≤ a → s.present (placeOf a) = false)

/-- O8. R19: an access to an offset of a register window that holds no register answers ST_ABSENT; the write is dropped, and SYS logs the address, in
SYS_ERRADDR if the record is empty and by its count otherwise. -/
def Obligations.EmptyRegisterOffsetsAreAbsent : Prop :=
  ∀ (s : State) (a v : Nat), 0x7F0000000000 ≤ a → a < 0x7F0160000000 → a % 8 = 0 → regAt a = .nothing →
    (s.regRead a).2.1 = ST.ABSENT ∧ (s.regWrite a v).1 = ST.ABSENT ∧
    ∀ t : State, t = (s.regRead a).2.2 ∨ t = (s.regWrite a v).2 →
      (s.flag F.SYS_ERRSTAT_VALID = false → t.rget .SYS_ERRADDR = a ∧ t.flag F.SYS_ERRSTAT_VALID = true ∧
        RegsKept s t [Reg.addr .SYS_ERRADDR 0 0, Reg.addr .SYS_ERRSTAT 0 0]) ∧
      (s.flag F.SYS_ERRSTAT_VALID = true → s.errNow = [] → t.rget .SYS_ERRCNT = min (s.rget .SYS_ERRCNT + 1) (2 ^ 64 - 1) ∧
        RegsKept s t [Reg.addr .SYS_ERRCNT 0 0]) ∧
      t = { s with regs := t.regs, w1c := t.w1c, errNow := t.errNow, free := t.free }

/-- O9. R521: under the shutdown latch the three reset commands complete with ST_STATE. -/
def Obligations.LatchRefusesResetCommands : Prop :=
  ∀ (s : State) (h : EcpHdr) (half : BitVec 8) (commit : Bool), s.hearsReset h.qp = true → s.flag F.PWR_SHUT_LATCH = true →
    (Takes s h OP.WARM_RESET GRP_REPAIR false true → exec (.warmReset h) s =
      .next (s.finish ((s.taken h).answer h OP.WARM_RESET GRP_REPAIR [] [] (some (ST.STATE, []))))) ∧
    (Takes s h OP.HALF_RESET GRP_REPAIR false false → exec (.halfReset h half) s =
      .next (s.finish ((s.taken h).answer h OP.HALF_RESET GRP_REPAIR [half.toNat] [] (some (ST.STATE, []))))) ∧
    (Takes s h OP.MOLT_HALF GRP_REPAIR false false → exec (.moltHalf h half commit) s =
      .next (s.finish ((s.taken h).answer h OP.MOLT_HALF GRP_REPAIR [half.toNat] [] (some (ST.STATE, [])))))

/-- O10. R451: the four conditions that a heartbeat passes. -/
def Obligations.HeartbeatsPassFourConditions : Prop :=
  ∀ (s : State) (x : HeartbeatIn), s.heartbeatOk x = true ↔
    x.uid.toNat = s.rget .CIC_PEERUID ∧ x.role ≠ s.standby ∧ (s.cmode ≠ 0 ∧ x.mode.toNat ≠ 0) ∧
    (s.cmode = 1 → x.mode.toNat = 1 → x.image.toNat = s.rget .STR_IMAGE ∧ x.mapdig.toNat = s.chmapDigest)

/-! ### The stream -/

/-- O11. FREEZE_BEGIN (R96, R97, R110): where a request's horizon has come and no trap, halt or stop changes the state as well, the stream is STALLED in stall
cycle 0 of a freeze; SCNT and everything else is held. -/
def Obligations.FreezeBeginHoldsTheStream : Prop :=
  ∀ s : State, Quiet s → s.life.powerFailed = false → s.str.st = .running → s.str.starting = false → s.stall.frz = none →
    s.freezeDue = true → s.trapDue = false → s.haltDue = false → s.stopDue = false →
    ∃ t, exec .freezeBegin s = .next t ∧ t.str = { s.str with st := .stalled } ∧
      (∃ f, t.stall = { s.stall with frz := some f } ∧ f.cyc = 0) ∧
      t.fget F.STR_STALLNUM_FREEZES = min (s.fget F.STR_STALLNUM_FREEZES + 1) (2 ^ 64 - 1) ∧
      t = { s with str := t.str, stall := t.stall, regs := t.regs, w1c := t.w1c } ∧
      RegsKept s t [Reg.addr .STR_STALLNUM 0 0, Reg.addr .STR_STALLSRC 0 0]

/-- O12. FREEZE_LIFT (R98, R110): the stream runs again at the SCNT it was held at, and the requests that held the freeze are gone.
R98: a freeze that lifts has lasted a whole number of clock frames, every request that holds it is released, and 24 stall cycles have
passed since the latest release.
R98: r is the smallest multiple of 12 at or above u + 24. -/
def Obligations.FreezeLiftsAfterTheLastRelease : Prop :=
  (∀ s : State, Quiet s → s.life.powerFailed = false → s.liftReady = true →
     ∃ t, exec .freezeLift s = .next t ∧ t.str = { s.str with st := .running } ∧
       t.stall = { s.stall with frz := none, reqs := s.stall.reqs.filter fun r => !r.effect s.cc } ∧
       t = { s with str := t.str, stall := t.stall, regs := t.regs, w1c := t.w1c, qps := t.qps, cmds := t.cmds } ∧
       RegsKept s t [Reg.addr .STR_STALLSRC 0 0] ∧ (s.doing OP.STREAM_RESUME = false → t.qps = s.qps ∧ t.cmds = s.cmds)) ∧
  (∀ (s : State) (f : Freeze), s.stall.frz = some f → s.liftReady = true →
     f.cyc % 12 = 0 ∧ ∀ r ∈ s.inEffect, r.released.isSome = true ∧ releaseCycle (s.frzStart f) r + 24 ≤ f.cyc) ∧
  (∀ u : Nat, liftCycle u % 12 = 0 ∧ u + 24 ≤ liftCycle u ∧ ∀ r, r % 12 = 0 → u + 24 ≤ r → liftCycle u ≤ r)

/-- O13. GATING_WINDOW (R102): the window that the present cycle lies in begins, its last G frames gated; with no new value of GATE_EFF waiting, G is
unchanged. -/
def Obligations.GatingWindowOpens : Prop :=
  ∀ s : State, Quiet s → s.life.powerFailed = false → s.windowDue = true →
    ∃ t, exec .gatingWindow s = .next t ∧
      t.stall.window = s.stall.window + 192 * ((s.cc - s.stall.window) / 192) ∧ t.stall.window ≤ s.cc ∧ s.cc < t.stall.window + 192 ∧
      t.stall.gateAt = (if t.fget F.STR_GATE_GATE_EFF = 0 then none else some (t.stall.window + 192 - 12 * t.fget F.STR_GATE_GATE_EFF)) ∧
      (s.stall.gateNew = [] → t.regs = s.regs) ∧ t = { s with stall := t.stall, regs := t.regs } ∧ RegsKept s t [Reg.addr .STR_GATE 0 0]

/-- O14. DEBUG_STEP (R103): with DBGEN = 1 and a debug request that holds, a write of N releases it and lets 12 × N bundles execute; otherwise
nothing changes.
DEBUG_REFREEZE (R103): after the last bundle of a step the device freezes again at once, held by the debug request of both halves. -/
def Obligations.DebugStepsRunAndRefreeze : Prop :=
  (∀ (s : State) (n : BitVec 16), Quiet s → s.ready = true →
     ∃ t, exec (.debugStep n) s = .next t ∧ t = { s with stall := t.stall } ∧
       (n ≠ 0 → s.flag F.STR_DEBUG_DBGEN = true → s.debugHeld = true →
         t.stall.debugLeft = some (12 * n.toNat) ∧ (∀ r ∈ t.stall.reqs, r.src = 4 → r.released.isSome = true) ∧
         t.stall.reqs.length = s.stall.reqs.length) ∧
       (n = 0 ∨ s.flag F.STR_DEBUG_DBGEN = false ∨ s.debugHeld = false → t = s)) ∧
  (∀ s : State, Quiet s → s.life.powerFailed = false → s.str.st = .running → s.stall.frz = none → s.stall.debugLeft = some 0 →
     s.trapDue = false → s.haltDue = false → s.stopDue = false →
     ∃ t, exec .debugRefreeze s = .next t ∧ t.str = { s.str with st := .stalled } ∧ t.stall.debugLeft = none ∧ t.stall.frz.isSome = true ∧
       t.debugHeld = true ∧ t = { s with str := t.str, stall := t.stall, regs := t.regs, w1c := t.w1c } ∧
       RegsKept s t [Reg.addr .STR_STALLNUM 0 0, Reg.addr .STR_STALLSRC 0 0])

/-- O15. START_CODE, STALL_TIMEOUT and STALL_RELEASE (R99, R101, R95, R98): an accepted start runs its code at a clock frame boundary, 48 CCLK cycles or more later,
and stands at the first bundle of block 0 at SCNT 0; a freeze that lasts too long leaves the stream FAULTED and reports the limit; a finished
replay releases exactly the requests of that source, half and unit that are still held, now. -/
def Obligations.StreamStartsReleasesAndTimesOut : Prop :=
  ∀ s : State,
    (s.powered = true → s.str.st = .running → s.str.starting = true → s.str.startHeld = false → s.stall.lanes % 4 ≠ 0 →
      ∃ t, exec .startCode s = .next t ∧ t = s.finish s.startCode ∧ t.str.st = .running ∧ t.str.starting = false ∧ t.str.scnt = 0 ∧
        t.str.blk = 0 ∧ t.str.off = 0 ∧ t.cc % 12 = 0 ∧ s.cc + 48 ≤ t.cc) ∧
    (s.stallTooLong = true → s.powered = true →
      ∃ t, exec .stallTimeout s = .next t ∧
        t = s.finish (s.toFaulted.raise .stallTimeout 0 0 0 (s.fget F.STR_STALLMAX_LIMIT)) ∧ t.str.st = .faulted) ∧
    (∀ half unit : Nat, Quiet s → s.powered = true → s.releases 0 half unit = true →
      ∃ t, exec (.stallRelease 0 half unit) s = .next t ∧
        t.stall.reqs = s.stall.reqs.map (fun r => if r.src = 0 ∧ r.half = half ∧ r.unit = unit ∧ r.released = none then
          { r with released := some s.cc } else r) ∧ t = { s with stall := t.stall }) ∧
    (∀ src half unit : Nat, s.powered = true → s.releases src half unit = true → src ≠ 0 →
      exec (.stallRelease src half unit) s = .next (s.finish (s.stallRelease src half unit)))

/-- O16. BUNDLE (R62, R63, R43): the bundle executes in one CCLK cycle and SCNT counts on; within a block the next bundle of the block follows. -/
def Obligations.BundleAdvancesScnt : Prop :=
  ∀ (s : State) (x : BundleEnv), s.bundleRuns = true →
    ∃ t, exec (.bundle x) s = .next t ∧
      (¬ (s.str.off + 1 = (s.ctlBlk s.str.blk).len ∧ (s.ctlBlk s.str.blk).kind = 4) →
        t.cc = s.cc + 1 ∧ t.str.scnt = s.str.scnt + 1) ∧
      (s.str.off + 1 ≠ (s.ctlBlk s.str.blk).len → t.str.off = s.str.off + 1)

/-- O17. MAILBOX_WRITE (R89, R91, R93): an aligned write within a slot is merged into the slot's entry. While the stream is RUNNING or STALLED it is the
slot's only pending entry, due 64 SCNT later, and memory is unchanged; otherwise the slot holds it at once, and it is present unless its CMD
is 0.
MAILBOX_PRESENT (R91, R93): the pending entry of a slot whose SCNT has come replaces what the slot holds. -/
def Obligations.MailboxEntriesTakeTheirSlots : Prop :=
  (∀ (s : State) (slot : Fin 1024) (off : Fin 64) (d : List Byte), Quiet s → s.ready = true → s.replayStandby = false →
     off.val % 8 = 0 → d.length % 8 = 0 → d ≠ [] → off.val + d.length ≤ 64 →
     let new := (s.mbxEntry slot).take off ++ d ++ (s.mbxEntry slot).drop (off + d.length)
     ∃ t, exec (.mailboxWrite slot off d) s = .next t ∧
       (s.running = true → t = { s with str := t.str } ∧ t.str = { s.str with pendingMbx :=
         (s.str.pendingMbx.filter fun q => q.slot ≠ slot.val) ++ [{ slot := slot, bytes := new, due := s.str.scnt.toNat + 64 }] }) ∧
       (s.running = false → t = { s with str := t.str, mem := t.mem, undef := t.undef } ∧
         (∀ i (h : i < new.length), t.byte (inSlot slot + i) = new[i]) ∧
         (∀ a, a < inSlot slot ∨ inSlot slot + new.length ≤ a → t.byte a = s.byte a) ∧
         smGet false t.str.present slot = decide (slotCmd new ≠ 0) ∧ ∀ q ∈ t.str.pendingMbx, q.slot ≠ slot.val)) ∧
  (∀ (s : State) (slot : Fin 1024) (p : MbxPend), Quiet s →
     (s.str.pendingMbx.find? fun p => p.slot = slot.val && decide (p.due ≤ s.str.scnt.toNat)) = some p →
     ∃ t, exec (.mailboxPresent slot) s = .next t ∧ t = { s with str := t.str, mem := t.mem, undef := t.undef } ∧
       (∀ i (h : i < p.bytes.length), t.byte (inSlot slot + i) = p.bytes[i]) ∧
       (∀ a, a < inSlot slot ∨ inSlot slot + p.bytes.length ≤ a → t.byte a = s.byte a) ∧
       smGet false t.str.present slot = decide (slotCmd p.bytes ≠ 0) ∧
       t.str.pendingMbx = s.str.pendingMbx.filter fun q => q.slot ≠ slot.val)

/-! ### ECP commands -/

/-- O18. R421, R422, R423: what refuses a command at its ACK, for each of the 21 commands: a device in warm reset, no open session (unless the command
needs none) or another one's number, and a command of its group in progress. Nothing but the reply, the CE mark and the count of refusals
changes. -/
def Obligations.EcpCommandsAreRefusedAtTheAck : Prop :=
  ∀ (s : State) (c : Instr) (h : EcpHdr) (op group : Nat) (free always : Bool),
    s.ecpRow c = some (h, op, group, free, always) → s.hears h.qp = true →
    let m := if h.ce = true then s.ceMark h.qp else s
    (s.life.warm = true → exec c s = .next (s.finish (m.refuse h op ST.RESET))) ∧
    (s.life.warm = false → s.lbistRefuses op group = false → free = false →
      s.flag F.ECP_QPSTAT_SESS h.qp = false ∨ s.fget F.ECP_SESSION_SESSION h.qp ≠ h.session.toNat →
      exec c s = .next (s.finish (m.refuse h op ST.AUTH))) ∧
    (s.life.warm = false → s.lbistRefuses op group = false →
      (free = true ∨ (s.flag F.ECP_QPSTAT_SESS h.qp = true ∧ s.fget F.ECP_SESSION_SESSION h.qp = h.session.toNat)) →
      group ≠ 0 → always = false → (s.cmds.any fun d => d.group = group) = true →
      exec c s = .next (s.finish (m.refuse h op ST.BUSY)))

/-- O19. R419 to R423: nothing else keeps one of the 21 commands out: its body is acted on in the state that counts it as accepted, and the ACK carries
its status, or says that it goes on.
R421: the ACK names the command by OPCODE and TAG, with DONE and the final status where the command is done; else the command is in progress
from now on. A reply goes to its queue pair only. -/
def Obligations.EcpCommandsAreAcceptedAndNamed : Prop :=
  (∀ (s : State) (c : Instr) (h : EcpHdr) (op group : Nat) (free always : Bool),
     s.ecpRow c = some (h, op, group, free, always) → s.hears h.qp = true → Takes s h op group free always →
     ∃ (body : State → State × Answer) (args : List Nat) (data : List Byte),
       exec c s = .next (s.finish ((body (s.taken h)).1.answer h op group args data (body (s.taken h)).2))) ∧
  (∀ (v : State) (h : EcpHdr) (op group : Nat) (args : List Nat) (data : List Byte) (a : Answer),
     let t := v.answer h op group args data a
     (∃ m, (t.qp h.qp).sendq = (v.qp h.qp).sendq ++ [m] ∧ m.kind = 2 ∧ m.op = op ∧ m.tag = h.tag.toNat ∧ m.session = h.session.toNat ∧
       m.done = a.isSome ∧ m.status = (a.map (·.1)).getD ST.OK ∧ m.body = (a.map (·.2)).getD []) ∧
     (∀ q, q ≠ h.qp.val → t.qp q = v.qp q) ∧
     (a.isSome = true → t.cmds = v.cmds) ∧
     (a = none → t.cmds = v.cmds ++ [Cmd.mk op h.qp h.session.toNat h.tag.toNat group v.cc args data]) ∧
     t = { v with qps := t.qps, cmds := t.cmds })

/-- O20. SESSION_CLOSE and EVENT_CFG (R426, R429): the session's register alone changes, but for the marks of the command itself.
SESSION_OPEN (R427, R429): a queue pair with a session answers ST_STATE, one that is locked out ST_AUTHLOCK, a device without an owner key
ST_NOKEY; else the answer is a NONCE of 16 bytes (a free value) and the next session number, which counts up, and the queue pair keeps both. -/
def Obligations.SessionCommandsAct : Prop :=
  (∀ (s : State) (h : EcpHdr) (m : BitVec 8), Quiet s → s.hears h.qp = true →
     (Takes s h OP.EVENT_CFG GRP_SESSION false false → ∃ t, exec (.eventCfg h m) s = .next t ∧
       t.fget F.ECP_SESSION_MINSEV h.qp = m.toNat ∧ t.fget F.ECP_SESSION_SESSION h.qp = h.session.toNat ∧
       t.cmds = s.cmds ∧ t = { s with regs := t.regs, qps := t.qps } ∧
       RegsKept s t [Reg.addr .ECP_SESSION h.qp 0, Reg.addr .ECP_CMDCNT h.qp 0, Reg.addr .ETH_CNPCNT (s.fget F.ECP_QPSTAT_PORT h.qp) 0]) ∧
     (Takes s h OP.SESSION_CLOSE GRP_SESSION false false → ∃ t, exec (.sessionClose h) s = .next t ∧
       t.flag F.ECP_QPSTAT_SESS h.qp = false ∧ t.rget .ECP_SESSION h.qp = 0xFF * 2 ^ 32 ∧
       t.cmds = s.cmds ∧ t = { s with regs := t.regs, qps := t.qps } ∧
       RegsKept s t [Reg.addr .ECP_SESSION h.qp 0, Reg.addr .ECP_QPSTAT h.qp 0, Reg.addr .ECP_CMDCNT h.qp 0,
         Reg.addr .ETH_CNPCNT (s.fget F.ECP_QPSTAT_PORT h.qp) 0])) ∧
  (∀ (s : State) (h : EcpHdr), s.hears h.qp = true → Takes s h OP.SESSION_OPEN GRP_SESSION true false →
     let u := s.taken h
     ∃ (v : State) (st : Nat) (body : List Byte),
       exec (.sessionOpen h) s = .next (s.finish (v.answer h OP.SESSION_OPEN GRP_SESSION [] [] (some (st, body)))) ∧
       (u.flag F.ECP_QPSTAT_SESS h.qp = true → v = u ∧ st = ST.STATE) ∧
       (u.flag F.ECP_QPSTAT_SESS h.qp = false → u.flag F.ECP_QPSTAT_LOCK h.qp = true → v = u ∧ st = ST.AUTHLOCK) ∧
       (u.flag F.ECP_QPSTAT_SESS h.qp = false → u.flag F.ECP_QPSTAT_LOCK h.qp = false →
         (u.mgmt.key = none → v = u ∧ st = ST.NOKEY) ∧
         (u.mgmt.key.isSome = true → st = ST.OK ∧ body = leBytes 16 (Config.freeNat u.free) ++ leBytes 4 (u.fget F.ECP_SESSNEXT_NEXT) ∧
           v.fget F.ECP_SESSNEXT_NEXT = (u.fget F.ECP_SESSNEXT_NEXT + 1) % 2 ^ 32 ∧
           (v.qp h.qp).nonce = some (leBytes 16 (Config.freeNat u.free), u.fget F.ECP_SESSNEXT_NEXT, s.cc) ∧
           v = { u with regs := v.regs, qps := v.qps, free := v.free })))

/-- O21. SESSION_PROOF (R428): the nonce is used up either way; a TAG that is the HMAC-SHA-256 of the message of R427 under the owner key, for the session
number offered and within 100 ms, opens the session; any other proof is ST_AUTH, is counted and is reported. -/
def Obligations.SessionProofOpensOrFails : Prop :=
  ∀ (s : State) (h : EcpHdr) (tag : BitVec 256) (key nonce : List Byte) (num since : Nat), s.hears h.qp = true →
    Takes s h OP.SESSION_PROOF GRP_SESSION true false → s.mgmt.key = some key → (s.qp h.qp).nonce = some (nonce, num, since) →
    ∃ (v : State) (st : Nat),
      exec (.sessionProof h tag) s = .next (s.finish (v.answer h OP.SESSION_PROOF GRP_SESSION [] [] (some (st, [])))) ∧
      (v.qp h.qp).nonce = none ∧
      (s.cc ≤ since + 96000000 → num = h.session.toNat → leBytes 32 tag.toNat = hmac key (s.proofMessage h.qp nonce num) →
        st = ST.OK ∧ v.flag F.ECP_QPSTAT_SESS h.qp = true ∧ v.fget F.ECP_SESSION_SESSION h.qp = h.session.toNat ∧ v.raised = s.raised) ∧
      (since + 96000000 < s.cc ∨ num ≠ h.session.toNat ∨ leBytes 32 tag.toNat ≠ hmac key (s.proofMessage h.qp nonce num) →
        st = ST.AUTH ∧ v.fget F.ECP_AUTHFAIL_COUNT h.qp = min (s.fget F.ECP_AUTHFAIL_COUNT h.qp + 1) (2 ^ 64 - 1) ∧
        v.raised.length = s.raised.length + 1)

/-- O22. REG_READ and REG_WRITE (R424): N of 1 to 16 registers answer 8 bytes of value and 2 of status each, in the order of their addresses.
MEM_READ (R425, R424): N of 1 to 16, an address that is a multiple of 64 and a range the host may read, else ST_DESC, ST_UNALIGNED or ST_PROT with
no effect; a read that passes is answered once its lines have come back. -/
def Obligations.RegisterAndMemoryCommandsAnswer : Prop :=
  (∀ (s : State) (h : EcpHdr) (addr : BitVec 64) (n : BitVec 8) (vs : List (BitVec 64)), s.hears h.qp = true →
     (Takes s h OP.REG_READ 0 false false → 1 ≤ n.toNat → n.toNat ≤ 16 → ∃ (v : State) (xs sts : List Nat),
       exec (.regRead h addr n) s = .next (s.finish (v.answer h OP.REG_READ 0 [] [] (some (ST.OK, xs.flatMap (leBytes 8) ++ sts.flatMap (leBytes 2))))) ∧
       xs.length = n.toNat ∧ sts.length = n.toNat ∧
       xs.head? = some ((s.taken h).regRead addr.toNat).1 ∧ sts.head? = some ((s.taken h).regRead addr.toNat).2.1) ∧
     (Takes s h OP.REG_WRITE 0 false false → 1 ≤ vs.length → vs.length ≤ 16 → ∃ (v : State) (sts : List Nat),
       exec (.regWrite h addr vs) s = .next (s.finish (v.answer h OP.REG_WRITE 0 [] [] (some (ST.OK, sts.flatMap (leBytes 2))))) ∧
       sts.length = vs.length ∧ (vs.length = 1 → v = ((s.taken h).regWrite addr.toNat (vs.map BitVec.toNat).sum).2))) ∧
  (∀ (s : State) (h : EcpHdr) (addr : BitVec 64) (n : BitVec 8), s.hears h.qp = true → Takes s h OP.MEM_READ 0 false false →
     let u := s.taken h
     let bad (st : Nat) : Prop := exec (.memRead h addr n) s = .next (s.finish (u.answer h OP.MEM_READ 0 [s.nextReq] [] (some (st, []))))
     (n.toNat = 0 ∨ 16 < n.toNat → bad ST.DESC) ∧
     (1 ≤ n.toNat → n.toNat ≤ 16 → addr.toNat % 64 ≠ 0 → bad ST.UNALIGNED) ∧
     (1 ≤ n.toNat → n.toNat ≤ 16 → addr.toNat % 64 = 0 → hostMayRead addr.toNat (64 * n.toNat) = false → bad ST.PROT) ∧
     (1 ≤ n.toNat → n.toNat ≤ 16 → addr.toNat % 64 = 0 → hostMayRead addr.toNat (64 * n.toNat) = true →
       let w := (u.startRead OP.MEM_READ h.qp h.session.toNat h.tag.toNat addr.toNat (64 * n.toNat)).2
       let req := (u.startRead OP.MEM_READ h.qp h.session.toNat h.tag.toNat addr.toNat (64 * n.toNat)).1
       ((w.rdreqs.find? fun r => r.req = req && r.full) = none →
         exec (.memRead h addr n) s = .next (s.finish (w.answer h OP.MEM_READ 0 [s.nextReq] [] none))) ∧
       (∀ r, (w.rdreqs.find? fun r => r.req = req && r.full) = some r → ∃ v : State,
         exec (.memRead h addr n) s = .next (s.finish (v.answer h OP.MEM_READ 0 [s.nextReq] []
           (some ((w.memReadBody r).1, (w.memReadBody r).2.1)))) ∧ v.rdreqs = w.rdreqs.filter fun x => x.req ≠ req)))

/-- O23. STREAM_LOAD and STREAM_START (R104, R105): a load is ST_STATE unless the stream is IDLE, LOADED or HALTED and no Molt runs; an image that passes the
checks is LOADED, and one that fails a check leaves the stream IDLE with ST_IMAGE. A start that nothing
refuses leaves the stream RUNNING at once, at SCNT 0 with no freeze and no request, and goes on; one that is refused changes nothing.
STREAM_HALT and STREAM_RESUME (R108, R111, R457): a halt in mode NOW raises its request in both halves at once; one in mode STEP waits for the
compiled step boundary that lies at least 24 SCNT ahead; a halt or a resume where the stream cannot take it is ST_STATE, and a resume of a
paced stream is ST_PAIR_WAIT. -/
def Obligations.StreamCommandsMoveTheStream : Prop :=
  (∀ (s : State) (h : EcpHdr) (id : BitVec 64) (force : Bool), s.hears h.qp = true →
     let u := s.taken h
     (Takes s h OP.STREAM_LOAD GRP_STREAM false false →
       ((s.str.st = .idle ∨ s.str.st = .loaded ∨ s.str.st = .halted) → s.life.molt = none →
         ∃ t, exec (.streamLoad h id) s = .next t ∧
           t = s.finish ((u.loadImage id.toNat).2.answer h OP.STREAM_LOAD GRP_STREAM [] [] (some ((u.loadImage id.toNat).1, []))) ∧
           (let good := (u.imageFault id.toNat).isNone
            t.str.st = (if good then .loaded else .idle) ∧ t.rget .STR_IMAGE = (if good then id.toNat else 0) ∧
            (u.loadImage id.toNat).1 = (if good then ST.OK else ST.IMAGE))) ∧
       (s.str.st = .running ∨ s.str.st = .stalled ∨ s.str.st = .trapped ∨ s.str.st = .faulted ∨ s.life.molt.isSome = true →
         exec (.streamLoad h id) s = .next (s.finish (u.answer h OP.STREAM_LOAD GRP_STREAM [] [] (some (ST.STATE, [])))))) ∧
     (Takes s h OP.STREAM_START GRP_STREAM false false →
       (∀ st, u.startRefusal force = some st →
         exec (.streamStart h force) s = .next (s.finish (u.answer h OP.STREAM_START GRP_STREAM [] [] (some (st, []))))) ∧
       (u.startRefusal force = none → u.replayStandby = false → ∃ v : State,
         exec (.streamStart h force) s = .next (s.finish (v.answer h OP.STREAM_START GRP_STREAM [] [] none)) ∧
         v.str.st = .running ∧ v.str.starting = true ∧ v.str.scnt = 0 ∧ v.str.haltStep = none ∧ v.str.startHeld = false ∧
         v.stall.frz = none ∧ v.stall.reqs = [] ∧ v.running = true))) ∧
  (∀ (s : State) (h : EcpHdr), s.hears h.qp = true →
     let u := s.taken h
     (Takes s h OP.STREAM_HALT GRP_STREAM false true →
       (s.running = true →
         exec (.streamHalt h 1) s = .next (s.finish (((u.request 6 0 0).request 6 1 0).answer h OP.STREAM_HALT GRP_STREAM [] [] none)) ∧
         (s.str.haltStep = none → let b := s.str.stepBase + u.ctlStepLen
           exec (.streamHalt h 0) s = .next (s.finish ((u.setStr { u.str with
             haltStep := some (if s.str.scnt.toNat + 24 < b then b else b + u.ctlStepLen) }).answer h OP.STREAM_HALT GRP_STREAM [] [] none)))) ∧
       (s.str.st = .idle ∨ s.str.st = .loaded ∨ s.str.st = .faulted →
         exec (.streamHalt h 1) s = .next (s.finish (u.answer h OP.STREAM_HALT GRP_STREAM [] [] (some (ST.STATE, [])))))) ∧
     (Takes s h OP.STREAM_RESUME GRP_STREAM false false →
       (u.flag F.CIC_STAT_PACED = true →
         exec (.streamResume h) s = .next (s.finish (u.answer h OP.STREAM_RESUME GRP_STREAM [] [] (some (ST.PAIR_WAIT, []))))) ∧
       (u.flag F.CIC_STAT_PACED = false → s.str.st = .trapped ∨ (s.str.st = .halted ∧ s.str.ended = false) → u.resume.1 = false →
         exec (.streamResume h) s = .next (s.finish (u.resume.2.answer h OP.STREAM_RESUME GRP_STREAM [] [] none)) ∧ u.resume.2.str.st = .stalled) ∧
       (u.flag F.CIC_STAT_PACED = false → s.running = true →
         exec (.streamResume h) s = .next (s.finish (u.answer h OP.STREAM_RESUME GRP_STREAM [] [] (some (ST.STATE, [])))))))

/-! ### Vaults, cores and maps -/

/-- O24. ARR_ROWMAP_WRITE (R181, R21): in a state in which RWL fields are writable, a value that names at most two distinct rows of the 66 is taken;
otherwise it is dropped. No stored value moves.
R163: whatever rows are out of use, the sums of all 64 columns leave their deskew buffers together, 129 cc after the row's issue. -/
def Obligations.RowmapsAndDeskewFollowTheirRows : Prop :=
  (∀ (s : State) (core : Fin 1024) (v : BitVec 64), Quiet s → s.ready = true →
     ∃ t, exec (.arrRowmapWrite core v) s = .next t ∧ t = { s with regs := t.regs } ∧ RegsKept s t [Reg.addr .ARR_ROWMAP core 0] ∧
       (s.locked = false → (∀ r ∈ rowmapFailed v.toNat, r ≤ 65) → (rowmapFailed v.toNat).Nodup → t.rget .ARR_ROWMAP core = v.toNat % 2 ^ 16) ∧
       (s.locked = true ∨ (∃ r ∈ rowmapFailed v.toNat, 65 < r) ∨ ¬ (rowmapFailed v.toNat).Nodup → t = s)) ∧
  (∀ (failed : List Nat) (c : Nat), failed.length ≤ 2 → c < 64 →
     lastRow failed + 1 + c + deskewOf failed c = 129)

/-- O25. REFRESH_INTERVAL (R213, R214): every channel of the half that does not refresh itself owes the rounds of its band more, 1, 2 or 4 of them, in a counter that stops at 255;
and a channel that owes its threshold asks for a freeze while the stream is RUNNING. The interval is counted, the other half's channels owe what they
owed, and while the stream is RUNNING or STALLED memory and the stream stay as they are.
R213: a refresh band rises as soon as its node exceeds the band's lower bound, and falls only when the node is 2 °C below it. -/
def Obligations.RefreshFollowsItsBand : Prop :=
  ((∀ (s : State) (half : Fin 2), s.awake = true → s.powered = true → s.clocked half = true → 3744 * (smGet 0 s.refIvl half + 1) ≤ s.cc →
     ∃ t, exec (.refreshInterval half) s = .next t ∧ t = s.finish (s.refreshInterval half) ∧
       smGet 0 t.refIvl half = smGet 0 s.refIvl half + 1 ∧ (∀ h : Fin 2, h ≠ half → smGet 0 t.refIvl h = smGet 0 s.refIvl h) ∧
       (s.running = true → t.mem = s.mem ∧ t.str = s.str ∧ ∀ i < 4352, let c := chanOfNum i
         (c.half = half.val → s.selfRef c = false → t.owed c = min 255 (s.owed c + bandRounds (t.chBand c))) ∧
         (c.half = half.val → s.selfRef c = true → t.owed c = 0) ∧ (c.half ≠ half.val → t.owed c = s.owed c))) ∧
   (∀ (s : State) (i : Nat), i < 4352 → let c := chanOfNum i
     (s.oweChan c).owed c = min 255 (s.owed c + bandRounds (s.chBand c)) ∧
     (∀ j < 4352, j ≠ i → (s.oweChan c).owed (chanOfNum j) = s.owed (chanOfNum j)) ∧
     (s.running = true → s.owedHi c ≤ s.owed c + bandRounds (s.chBand c) → (s.oweChan c).requested 1 c.num = true) ∧
     (s.oweChan c).raised = s.raised ∧ (s.oweChan c).mem = s.mem)) ∧
  (∀ (b : Nat) (t : Int), b ≤ 3 →
     let low (k : Nat) : Int := 75000000 + 10000000 * k
     let b' := bandNext b t
     b' ≤ 3 ∧ (∀ k, 1 ≤ k → k ≤ 3 → low k < t → k ≤ b') ∧ (b < b' → low b' < t) ∧ (b' < b → t ≤ low (b' + 1) - 2000000))

/-- O26. CHMAP_SET (R226): while the stream is RUNNING the request waits for the step boundary and its channel shows PENDING; in any other state it takes
effect at once. It is judged by the channel's map state at that moment: the four actions, and ST_STATE with no effect from any other state.
RETRAIN_DONE (R227): the channel in retraining ends it with the connections the training found failed; where it found none, the channel is
OFFLINE again. -/
def Obligations.ChannelMapFollowsItsTable : Prop :=
  ((∀ (s : State) (h : EcpHdr) (kind action : BitVec 8) (index : BitVec 16), s.hears h.qp = true →
     Takes s h OP.CHMAP_SET GRP_MAP false false → kind.toNat ≤ 1 → action.toNat ≤ 3 →
     index.toNat < (if kind.toNat = 0 then 4096 else 256) → let c := chmapChan kind.toNat index.toNat
     let u := s.taken h
     u.moltOn c.half = false →
     (s.running = true → exec (.chmapSet h kind action index) s =
       .next (s.finish ((u.setChPending c 1).answer h OP.CHMAP_SET GRP_MAP [kind.toNat, action.toNat, index.toNat] [] none))) ∧
     (s.running = false → (u.chmapApply c action.toNat).1 = none → exec (.chmapSet h kind action index) s =
       .next (s.finish ((u.chmapApply c action.toNat).2.answer h OP.CHMAP_SET GRP_MAP [kind.toNat, action.toNat, index.toNat, 1] [] none))) ∧
     (∀ st, s.running = false → (u.chmapApply c action.toNat).1 = some st → exec (.chmapSet h kind action index) s =
       .next (s.finish (((u.chmapApply c action.toNat).2.drainHost.serveAll).answer h OP.CHMAP_SET GRP_MAP
         [kind.toNat, action.toNat, index.toNat, 1] [] (some (st, [])))))) ∧
   (∀ (s : State) (i : Nat), i < 4352 → let c := chanOfNum i
     let on := s.chState c = CH.ONLINE
     let off := s.chState c = CH.OFFLINE
     let out := s.chState c = CH.MAPPED_OUT
     (off → (s.chmapApply c 0).1 = some ST.OK ∧ (s.chmapApply c 0).2.chState c = CH.ONLINE) ∧
     (on → (s.chmapApply c 1).1 = some ST.OK ∧ (s.chmapApply c 1).2.chState c = CH.OFFLINE) ∧
     (off ∨ out → (s.chmapApply c 2).1 = none ∧ (s.chmapApply c 2).2.chState c = CH.RETRAINING) ∧
     (on ∨ off → (s.chmapApply c 3).1 = some ST.OK ∧ (s.chmapApply c 3).2.chState c = CH.MAPPED_OUT) ∧
     (∀ a, (a = 0 → ¬ off) → (a = 1 → ¬ on) → (a = 2 → ¬ (off ∨ out)) → (a = 3 → ¬ (on ∨ off)) → a ≤ 3 →
       (s.chmapApply c a).1 = some ST.STATE ∧ (s.chmapApply c a).2 = s.setChPending c 0))) ∧
  (∀ (s : State) (bad : List (Fin 280)) (c : Chan), s.awake = true → s.powered = true → s.retraining = some c → s.clocked c.half = true →
     let found := bad.map Fin.val |>.filter fun j => decide (j < (match c with | .vault _ _ => 280 | .side _ _ => 72))
     ∃ t, exec (.retrainDone bad) s = .next t ∧ t = s.finish (s.retrainDone c found) ∧
       (t.chState c = CH.OFFLINE ∨ t.chState c = CH.MAPPED_OUT) ∧ (found = [] → t.chState c = CH.OFFLINE) ∧ t.mem = s.mem ∧ t.str = s.str ∧
       (s.retrainCmd = some c → ∀ d, s.cmdOf OP.CHMAP_SET = some d → t.cmds = s.cmds.filter fun x => decide (x ≠ d)) ∧
       (found = [] → s.retrainCmd ≠ some c → s.retrainDone c found = s.setChState c CH.OFFLINE))

/-- O27. KV_REFILL (R255): while the stream is RUNNING it waits for the step boundary; otherwise the reserves of the cores that MASK names are refilled at
once, and the answer names the cores whose free list was empty: a core whose reserve is gone and whose free list holds a page takes that page as
its reserve.
ATTENTION_CALL (R257, R259, R260, R262, R263): where the call that an engine has in hand has run its cycles, its output is written to OUT of its job
record, poison where the call began without a licence or with a poisoned record, and the engine stands at the next record, round the job list;
the other engines, the stream and every byte outside the core's scratch stay. -/
def Obligations.KvRefillAndAttentionCalls : Prop :=
  (∀ (s : State) (h : EcpHdr) (mask : BitVec 1024), s.hears h.qp = true → Takes s h OP.KV_REFILL GRP_PAGES false false →
     let u := s.taken h
     let m := leBytes 128 mask.toNat
     (s.running = true → exec (.kvRefill h mask) s = .next (s.finish (u.answer h OP.KV_REFILL GRP_PAGES [] m none))) ∧
     (s.running = false → exec (.kvRefill h mask) s =
       .next (s.finish ((u.refillAll m).2.answer h OP.KV_REFILL GRP_PAGES [] m (some (refillAnswer (u.refillAll m).1))))) ∧
     (∀ n, n ∈ (u.refillAll m).1 ↔ n < 1024 ∧ mask.getLsbD n = true ∧ s.flag F.KVP_STAT_RSVTAKEN n = true ∧ s.fget F.KVP_FREE_COUNT n = 0) ∧
     (∀ n < 1024, let v := (u.refillAll m).2
       (mask.getLsbD n = true ∧ s.flag F.KVP_STAT_RSVTAKEN n = true ∧ s.fget F.KVP_FREE_COUNT n ≠ 0 →
         v.flag F.KVP_STAT_RSVTAKEN n = false ∧ v.flag F.KVP_RESERVE_VALID n = true ∧ v.fget F.KVP_RESERVE_PAGE n = s.fget F.KVP_FREE_HEAD n ∧
         v.fget F.KVP_FREE_COUNT n = s.fget F.KVP_FREE_COUNT n - 1) ∧
       (mask.getLsbD n = false ∨ s.flag F.KVP_STAT_RSVTAKEN n = false ∨ s.fget F.KVP_FREE_COUNT n = 0 →
         v.rget .KVP_FREE n = s.rget .KVP_FREE n ∧ v.rget .KVP_RESERVE n = s.rget .KVP_RESERVE n ∧ v.rget .KVP_STAT n = s.rget .KVP_STAT n))) ∧
  (∀ (s : State) (core : Fin 1024) (hit : Bool), s.saeReady core = true →
     ∃ t, exec (.attentionCall core hit) s = .next t ∧
       t = s.finish ((if hit = true then s.residueHit { core := core, unit := 6, check := 1, lane := 0, row := 0, part := 0 } else s).attentionCall core hit) ∧
       (t.saeOf core).next < max 1 (t.fget F.KVP_SAEJOB_NJOB core) ∧
       t.saeOf core = { next := ((s.saeOf core).next + 1) % max 1 (s.fget F.KVP_SAEJOB_NJOB core) } ∧
       (∀ n, n ≠ core.val → t.saeOf n = s.saeOf n) ∧ t.str = s.str ∧
       (∀ a, a < scratchAddr core 0 ∨ scratchAddr core 0x180000 ≤ a → t.byte a = s.byte a) ∧
       ∃ c, (s.saeOf core).call = some c ∧ c.last < s.now ∧
         let j := jobOf c.job
         (hit = true ∨ c.pois = true ∨ c.lapsed = true → j.out + j.g * j.nq * j.rowLen ≤ 0x180000 → ∀ i < j.g * j.nq * j.rowLen,
           smGet false t.gpois (gran (scratchAddr core (j.out + i))) = true))

/-- O28. R202, R321: a word in which one symbol is wrong, in whichever place and with whichever error, decodes to a correction of exactly that symbol. -/
def Obligations.SingleSymbolErrorsAreCorrected : Prop :=
  ∀ (nc i e : Nat), nc = 3 ∨ nc = 4 → i < nc + 32 → 0 < e → e < 256 → rsDecode nc (synOf nc i e) [] = .corr [(i, e)] (some i)

/-! ### Weevil engines -/

/-- O29. The eleven operations (R275, R277, R283): a channel reads its next descriptor where it is enabled and not halted, nothing runs on it and a descriptor
is due; the descriptor that it has read starts where the stream is RUNNING with no freeze; which of the operations starts is the descriptor's own OP. -/
def Obligations.WeevilDescriptorsStart : Prop :=
  ∀ (s : State) (cl : Fin 128) (ch : Fin 8) (x : Bool),
    let go (op : Nat) (c : Instr) : Prop := s.wvReady cl ch op = true → exec c s = .next (s.finish (s.wvStart cl ch x))
    (go 0 (.nop cl ch x) ∧ go 1 (.copy cl ch x) ∧ go 2 (.gather cl ch x) ∧ go 3 (.scatter cl ch x) ∧ go 4 (.pageAppend cl ch x) ∧
      go 5 (.pageCow cl ch x) ∧ go 6 (.pageShare cl ch x) ∧ go 7 (.pageFree cl ch x) ∧ go 8 (.treeWalk cl ch x) ∧
      go 9 (.topkRoute cl ch x) ∧ go 10 (.hostWindow cl ch x)) ∧
    (∀ op op', s.wvReady cl ch op = true → s.wvReady cl ch op' = true → op = op') ∧
    (∀ op, s.wvReady cl ch op = true → op ≤ 10 ∧ s.str.st = .running ∧ s.stall.frz = none ∧ (s.wch cl ch).run = none ∧
      ∃ g, (s.wch cl ch).got = some g ∧ g.op = op) ∧
    (∀ n, s.wvFetches cl ch n = true → s.flag F.WVL_CHCTL_EN cl ch = true ∧ s.flag F.WVL_CHCTL_HALTED cl ch = false ∧
      (s.wch cl ch).run = none ∧ (s.wch cl ch).got = none ∧ 0 < s.queued cl ch ∧ ∃ d, s.startDue cl ch = some d ∧ d ≤ n)

/-- O30. How a descriptor of each of the eleven operations begins (R275, R277 to R283): a descriptor that cannot be used occupies its channel for 8 cycles and
does nothing; one that R280 turns away, or whose RSV is below its worst case, occupies it for RSV cycles and does nothing, with the status;
any other occupies it for RSV cycles from its start, and its accesses fall at the offsets of its operation. A page operation that does not find
the page unit free waits for it, without an access. Memory, the stream and every other channel stay. -/
def Obligations.WeevilDescriptorsBegin : Prop :=
  (∀ (s : State) (cl : Fin 128) (ch : Fin 8) (x : Bool) (g : WGot), (s.wch cl ch).got = some g →
    let t0 := s.now - 1
    let begins (op : Nat) (c : Instr) : Prop := s.wvReady cl ch op = true → ∃ t r, exec c s = .next t ∧ (t.wch cl ch).run = some r ∧
      (t.wch cl ch).got = none ∧ r.start = t0 ∧ r.idx = s.fget F.WVL_IDX_CONS cl ch ∧ t.flag F.WVL_CHCTL_BUSY cl ch = true ∧
      t.fget F.WVL_CHCTL_CUROP cl ch = r.op ∧ t.mem = s.mem ∧ t.str = s.str ∧
      (∀ ch' : Fin 8, ch' ≠ ch → t.wch cl ch' = s.wch cl ch') ∧ (∀ cl' : Fin 128, cl' ≠ cl → t.wv cl' = s.wv cl') ∧
      (g.desc = none → r.op = 0 ∧ r.rsv = 8 ∧ r.fin = some (t0 + 7) ∧ r.todo = [] ∧ r.acts = [] ∧
        r.status = (if g.uncorr = true then ST.UNCORR else ST.DESC) ∧ r.halts = g.uncorr) ∧
      (∀ d, g.desc = some d → r.op = dOp d ∧ r.desc = d ∧ r.tag = dField d 4 4 ∧ r.rsv = dRsv d ∧ (op ≠ 0 → r.op = op) ∧
        let runs : Prop := r.fin = some (t0 + dRsv d - 1) ∧ r.todo = markClose (dOpening d t0).1 ∧
          r.acts = (dOpening d t0).2.map fun a => (t0 + a.1, a.2)
        (∀ st cause, s.dCheck cl d (s.dBf16 d) = some (st, cause) → r.status = st ∧ r.todo = [] ∧ r.acts = [] ∧ r.fin = some (t0 + dRsv d - 1)) ∧
        (s.dCheck cl d (s.dBf16 d) = none → dRsv d < dWorst d (s.dBf16 d) →
          r.status = ST.RSV ∧ r.todo = [] ∧ r.acts = [] ∧ r.fin = some (t0 + dRsv d - 1)) ∧
        (s.dCheck cl d (s.dBf16 d) = none → dWorst d (s.dBf16 d) ≤ dRsv d → r.status = ST.OK ∧
          (isPageOp d = false → runs) ∧
          (isPageOp d = true → (s.wv cl).wait = [] → (s.wv cl).puFree ≤ t0 → s.str.stepBase ≤ t0 → t0 + 384 < s.str.stepBase + s.ctlStepLen →
            runs ∧ (t.wv cl).puFree = t0 + dRsv d ∧ t.flag F.WVL_PUSTAT_BUSY cl = true ∧ t.fget F.WVL_PUSTAT_CH cl = ch.val) ∧
          (isPageOp d = true → (s.wv cl).wait ≠ [] ∨ t0 < (s.wv cl).puFree →
            r.fin = none ∧ r.todo = [] ∧ r.acts = [] ∧ ch.val ∈ (t.wv cl).wait ∧ (t.wv cl).wait.length = (s.wv cl).wait.length + 1)))
    begins 0 (.nop cl ch x) ∧ begins 1 (.copy cl ch x) ∧ begins 2 (.gather cl ch x) ∧ begins 3 (.scatter cl ch x) ∧
    begins 4 (.pageAppend cl ch x) ∧ begins 5 (.pageCow cl ch x) ∧ begins 6 (.pageShare cl ch x) ∧ begins 7 (.pageFree cl ch x) ∧
    begins 8 (.treeWalk cl ch x) ∧ begins 9 (.topkRoute cl ch x) ∧ begins 10 (.hostWindow cl ch x)) ∧
  (∀ (d : List Byte) (n : Nat), let src := dField d 16 8; let dst := dField d 24 8; let ws := (dOpening d n).1
    let reads (due addr : Nat) : Prop := ∃ w ∈ ws, w.due = due ∧ w.addr = addr ∧ w.write = false ∧ w.window = false
    (dOp d = 0 → ws = []) ∧
    (dOp d = 1 → ws.length = 2 * dField d 40 4 ∧ ∀ j < dField d 40 4, reads (n + 4 + j / dNl d) (src + 64 * j) ∧
      ∃ w ∈ ws, w.due = n + 4 + j / dNl d + lineDelay src dst ∧ w.addr = dst + 64 * j ∧ w.write = true ∧ w.line = j) ∧
    (dOp d = 2 ∧ dMode d ≠ 1 ∨ dOp d = 3 → ∀ i < ceilDiv (dField d 40 2) 16, reads (n + 4 + i / 2) (dField d 32 8 + 64 * i)) ∧
    (dOp d = 2 ∧ dMode d = 1 ∨ 4 ≤ dOp d ∧ dOp d ≤ 7 → ∀ i < 5, reads (n + 4 + i / 2) (src + 64 * i)) ∧
    (dOp d = 6 → reads (n + 6) dst) ∧ (dOp d = 8 → reads (n + 4) src) ∧
    (dOp d = 9 → ∀ i < dField d 48 2 * ceilDiv (dField d 50 2) 16, reads (n + 4 + i / 2) (src + 64 * i)) ∧
    (dOp d = 10 → ws.length = dField d 44 4 ∧ ∀ j < dField d 44 4, ∃ w ∈ ws, w.due = n + 4 + j / dNl d ∧ w.window = true ∧ w.addr = src))

/-- O31. PAGE_UNIT_TAKE (R282): the free page unit takes the operation that waits first, and one fewer waits; the operation's occupancy and its accesses count
from that cycle.
DESCRIPTOR_COMPLETE (R275, R277): at the end of its occupancy a descriptor leaves the channel free, its index is consumed and counted, and its
status record, unless it was refused, stands in the status ring; the next descriptor may start in the cycle after. -/
def Obligations.DescriptorsTakeTheUnitAndComplete : Prop :=
  (∀ (s : State) (cl : Fin 128) (ch : Fin 8) (rest : List Nat) (r : WRun), s.str.st = .running → s.stall.frz = none → (s.wv cl).wait = ch.val :: rest →
     (s.wv cl).puFree ≤ s.now → (s.wch cl ch).run = some r → 8 ≤ r.rsv →
     ∃ t q, exec (.pageUnitTake cl) s = .next t ∧
       t = s.finish (((s.setWv cl { s.wv cl with wait := rest }).fset F.WVL_PUSTAT_WAITING cl 0
         (s.fget F.WVL_PUSTAT_WAITING cl - 1)).puTake cl ch r s.now) ∧
       (t.wch cl ch).run = some q ∧ q.fin = some (s.now + r.rsv - 1) ∧ q.todo = r.todo ++ markClose (dOpening r.desc s.now).1 ∧
       q.acts = r.acts ++ (dOpening r.desc s.now).2.map (fun a => (s.now + a.1, a.2)) ∧
       (t.wv cl).wait = rest ∧ (t.wv cl).puFree = s.now + r.rsv ∧ t.flag F.WVL_PUSTAT_BUSY cl = true ∧ t.fget F.WVL_PUSTAT_CH cl = ch.val ∧
       t.fget F.WVL_PUSTAT_OP cl = r.op % 256 ∧ t.fget F.WVL_PUSTAT_WAITING cl = s.fget F.WVL_PUSTAT_WAITING cl - 1 ∧
       (∀ ch' : Fin 8, ch' ≠ ch → t.wch cl ch' = s.wch cl ch') ∧ t.mem = s.mem ∧ t.str = s.str) ∧
  (∀ (s : State) (cl : Fin 128) (ch : Fin 8) (r : WRun) (f : Nat), (s.wch cl ch).run = some r → r.fin = some f → f < s.now →
     ∃ t, exec (.descriptorComplete cl ch) s = .next t ∧ t = s.finish (s.wvComplete cl ch r) ∧ (t.wch cl ch).run = none ∧
       (t.wch cl ch).nextAt = s.now ∧ t.flag F.WVL_CHCTL_BUSY cl ch = false ∧ t.fget F.WVL_CHCTL_CUROP cl ch = 0 ∧
       t.fget F.WVL_IDX_CONS cl ch = (s.fget F.WVL_IDX_CONS cl ch + 1) % 2 ^ 32 ∧
       t.fget F.WVL_DESCCNT_COUNT cl = F.WVL_DESCCNT_COUNT.up (s.fget F.WVL_DESCCNT_COUNT cl) ∧
       ((s.wv cl).kvLate = false → (∀ ch' : Fin 8, ch' ≠ ch → t.wch cl ch' = s.wch cl ch') ∧ t.str = s.str ∧
         (∀ a, a < scratchAddr (s.ringCore cl ch) 0 ∨ scratchAddr (s.ringCore cl ch) 0x180000 ≤ a → t.byte a = s.byte a) ∧
         (r.lost = true → t.mem = s.mem) ∧
         (r.lost = false → s.failed (s.ringCore cl ch) = false → s.statusOff cl ch r.idx + 16 ≤ 0x180000 →
           let rec_ := leBytes 2 (if r.halts = true then ST.UNCORR else r.status) ++ leBytes 1 r.op ++ leBytes 1 0 ++ leBytes 4 r.idx ++
             leBytes 4 r.tag ++ leBytes 4 r.result
           ∀ i (h : i < rec_.length), t.byte (scratchAddr (s.ringCore cl ch) (s.statusOff cl ch r.idx + i)) = rec_[i])))

/-- O32. WVL_ENABLE, WVL_DISABLE, WVL_CLEAR (R301, R303): while the stream is RUNNING the command waits for the step boundary, and EN, HALTED and CONS stay;
in any other state it acts at once: ENABLE sets EN and nothing else; DISABLE clears EN, CLEAR ends a halt, and both cancel and count every queued
descriptor but one that has started, and no post waits. -/
def Obligations.ChannelCommandsWaitOrAct : Prop :=
  ∀ (s : State) (cl : Fin 128) (ch : Fin 8), Quiet s → s.ready = true →
    let busy := if (s.wch cl ch).run.isSome = true ∨ (s.wch cl ch).got.isSome = true then 1 else 0
    let cancels (t : State) : Prop := t.queued cl ch = min (s.queued cl ch) busy ∧ (t.wch cl ch).posts = [] ∧ (t.wch cl ch).run = (s.wch cl ch).run ∧
      t.fget F.WVL_CANCCNT_COUNT cl = min (s.fget F.WVL_CANCCNT_COUNT cl + (s.queued cl ch - busy)) (2 ^ 64 - 1) ∧
      t.str = s.str ∧ t.stall = s.stall ∧ t.cmds = s.cmds
    (s.running = true →
      (∃ t, exec (.wvlEnable cl ch) s = .next t ∧ (t.wch cl ch).pend = 1 ∧ (t.wch cl ch).clr = (s.wch cl ch).clr ∧
        t.flag F.WVL_CHCTL_ENPEND cl ch = true ∧ t.flag F.WVL_CHCTL_EN cl ch = s.flag F.WVL_CHCTL_EN cl ch ∧
        t = { s with regs := t.regs, wvl := t.wvl } ∧ RegsKept s t [Reg.addr .WVL_CHCTL cl ch]) ∧
      (∃ t, exec (.wvlDisable cl ch) s = .next t ∧ (t.wch cl ch).pend = 2 ∧ (t.wch cl ch).clr = (s.wch cl ch).clr ∧
        t.flag F.WVL_CHCTL_ENPEND cl ch = true ∧ t.flag F.WVL_CHCTL_EN cl ch = s.flag F.WVL_CHCTL_EN cl ch ∧
        t = { s with regs := t.regs, wvl := t.wvl } ∧ RegsKept s t [Reg.addr .WVL_CHCTL cl ch]) ∧
      (∃ t, exec (.wvlClear cl ch) s = .next t ∧ (t.wch cl ch).pend = (s.wch cl ch).pend ∧ (t.wch cl ch).clr = true ∧
        t.flag F.WVL_CHCTL_CLRPEND cl ch = true ∧ t.flag F.WVL_CHCTL_HALTED cl ch = s.flag F.WVL_CHCTL_HALTED cl ch ∧
        t = { s with regs := t.regs, wvl := t.wvl } ∧ RegsKept s t [Reg.addr .WVL_CHCTL cl ch])) ∧
    (s.running = false →
      (∃ t, exec (.wvlEnable cl ch) s = .next t ∧ t.flag F.WVL_CHCTL_EN cl ch = true ∧
        t.flag F.WVL_CHCTL_HALTED cl ch = s.flag F.WVL_CHCTL_HALTED cl ch ∧ t = { s with regs := t.regs } ∧
        RegsKept s t [Reg.addr .WVL_CHCTL cl ch]) ∧
      (∃ t, exec (.wvlDisable cl ch) s = .next t ∧ t = s.finish (s.wvApply cl ch 2 false false) ∧ t.flag F.WVL_CHCTL_EN cl ch = false ∧
        t.flag F.WVL_CHCTL_HALTED cl ch = s.flag F.WVL_CHCTL_HALTED cl ch ∧ cancels t) ∧
      (∃ t, exec (.wvlClear cl ch) s = .next t ∧ t = s.finish (s.wvApply cl ch 0 true false) ∧
        t.flag F.WVL_CHCTL_EN cl ch = s.flag F.WVL_CHCTL_EN cl ch ∧
        ((s.wch cl ch).haltAt ≠ s.now + 1 → t.flag F.WVL_CHCTL_HALTED cl ch = false) ∧ cancels t) ∧
      (s.wvCancel cl ch).2.1 = s.queued cl ch - busy)

/-! ### Side stacks and Scarab compute -/

/-- O33. The scheduled line slots (R309, R315): where the stream runs unfrozen and the next slot of a channel falls in the present SCNT, the command of the
entry's kind runs that slot, and the reserved slot's command runs slot 15 of 16; a slot that has run does not come again.

The second part says what the slot of each kind of entry does (R317, R318, R324, R325, R331, R333, R335, R346 to R348, R353), on a channel on which nothing else falls in
that slot: no line of an earlier slot, no deadline, no lease. An ACCESS advances its generator; a read delivers its line 8 slots later, of
poison where the address is absent. The first slot of a REFWIN pays one owed round and closes every bank. A SVC goes on to the next bank. REDOPEN opens
its reduction with identities; REDCLOSE delivers the line named and closes the reduction with its last. A LEASE that is not refused holds its groups from this
slot on; a refused one is counted. A BCAST takes the head of its ingress queue. A reserved slot moves one fill line. The cursor moves one slot on,
and in a reserved slot not at all. -/
def Obligations.SideSlotsRunOnce : Prop :=
  (∀ (s : State) (k : Fin 8) (c : Fin 32) (hits : List SideHit) (n : Nat), s.nextSlot k c = some n →
    let runs (i : Instr) (hs : List SideHit) : Prop := ∃ t, exec i s = .next t ∧ t = s.finish (s.sideSlot k c n hs) ∧ (t.sc k c).next = n + 1 ∧
      (∀ n', t.nextSlot k c = some n' → n < n') ∧ ∀ c' : Fin 32, c' ≠ c → t.sc k c' = s.sc k c'
    s.str.st = .running ∧ s.stall.frz = none ∧ firstSlot s.nowS ≤ n ∧ n < firstSlot (s.nowS + 1) ∧
    (n % 16 ≠ 15 →
      (s.slotKind k c = some (1, 0) → runs (.access k c hits) hits) ∧ (s.slotKind k c = some (2, 0) → runs (.refwin k c hits) hits) ∧
      (s.slotKind k c = some (3, 0) → runs (.svc k c hits) hits) ∧ (s.slotKind k c = some (4, 0) → runs (.redopen k c hits) hits) ∧
      (s.slotKind k c = some (5, 0) → runs (.redclose k c hits) hits) ∧ (s.slotKind k c = some (6, 0) → runs (.lease k c hits) hits) ∧
      (s.slotKind k c = some (6, 1) → runs (.bcast k c hits) hits)) ∧
    (n % 16 = 15 → runs (.sideReservedSlot k c) [])) ∧
  (∀ (s : State) (k : Fin 8) (c : Fin 32) (n : Nat), s.nextSlot k c = some n →
    let y := s.sc k c
    let ch := Chan.side k c
    y.evts = [] → y.lease = none → (∀ p ∈ y.reds, p.2.judged = true ∨ n < p.2.deadline) →
    (n % 16 ≠ 15 → ∀ e, s.entryAt k y.cur = some e →
      let runs (i : Instr) (P : State → Prop) : Prop := ∃ t, exec i s = .next t ∧ (t.sc k c).cur = y.cur.step e ∧ (t.sc k c).next = n + 1 ∧ P t
      let sel := eSag e
      let g := s.sag k (chanSagAt c sel)
      let i := smGet 0 y.agk sel
      let steps (t : State) : Prop := (t.sc k c).agk = smPut 0 y.agk sel ((i + 1) % g.count)
      let o := eOpnd e
      let poison : Line := List.replicate 64 none
      (s.slotKind k c = some (1, 0) → runs (.access k c []) fun t => steps t ∧
        (g.ok = true → g.ind = false → g.dir = 0 → 0 ≤ g.at i → g.at i < 0x80000000 →
          (∃ d : Line, (t.sc k c).evts = [(n + 8, .egress g.port { data := d })]) ∧
          (s.chPresent ch ((g.at i).toNat / 64 * 64) = false → (t.sc k c).evts = [(n + 8, .egress g.port { data := poison })])) ∧
        (g.ok = true → g.dir = 1 → (t.sc k c).evts = [] ∧ (t.sc k c).reds = y.reds)) ∧
      (s.slotKind k c = some (2, 0) → runs (.refwin k c []) fun t =>
        (eNslot e = 160 → y.cur.used = 0 → (t.sc k c).lastRef = some n ∧ (t.sc k c).refIdle = false ∧ t.owed ch = s.owed ch - 1 ∧
          ∀ p ∈ (t.chan ch).banks, p.2.row = none)) ∧
      (s.slotKind k c = some (3, 0) → runs (.svc k c []) fun t => (t.sc k c).svc = y.svc + 1) ∧
      (s.slotKind k c = some (4, 0) → runs (.redopen k c []) fun t =>
        (y.cur.used = 0 → eNslot e = 1 → bits o 5 4 ≠ 3 → bits o 43 30 ≠ 0 → t.red k c (bits o 3 0) =
          some { aop := bits o 5 4, fmt := bits o 7 6, exp := bits o 29 14 + 1, deadline := n + bits o 43 30,
                 lines := List.replicate (bits o 13 8 + 1) (identLine (bits o 5 4) (bits o 7 6)), cnts := List.replicate (bits o 13 8 + 1) 0 })) ∧
      (s.slotKind k c = some (5, 0) → runs (.redclose k c []) fun t => steps t ∧
        (∀ v l, g.ok = true → g.dir = 0 → 0 ≤ g.at i → s.red k c g.rid = some v → v.deadline ≤ n → v.lines[(g.at i).toNat]? = some l →
          (t.sc k c).evts = [(n + 8, .egress g.port { data := l })] ∧
          t.red k c g.rid = (if v.wrote + 1 < v.lines.length then some { v with wrote := v.wrote + 1 } else none)) ∧
        (g.ok = true → g.dir = 0 → s.red k c g.rid = none → (t.sc k c).evts = [(n + 8, .egress g.port { data := poison })])) ∧
      (s.slotKind k c = some (6, 0) → isScarab k = true → y.cur.used = 0 → runs (.lease k c []) fun t =>
        (s.leaseRefusal k c n e = none → (∃ l, (t.sc k c).lease = some l ∧ l.start = n ∧ l.lenf = bits o 16 8 ∧ l.gmask = bits o 7 0 ∧
            l.jrec = 64 * bits o 33 20) ∧
          t.fget F.SCB_LEASECNT_COUNT k = F.SCB_LEASECNT_COUNT.up (s.fget F.SCB_LEASECNT_COUNT k) ∧
          ∀ p ∈ (t.chan ch).banks, (bits o 7 0).testBit (p.1 / 4) = true → p.2.row = none) ∧
        (s.leaseRefusal k c n e ≠ none → (t.sc k c).lease = none ∧ (t.sc k c).bvalid = [] ∧
          t.fget F.SCB_REFUSECNT_COUNT k = F.SCB_REFUSECNT_COUNT.up (s.fget F.SCB_REFUSECNT_COUNT k))) ∧
      (s.slotKind k c = some (6, 1) → isScarab k = true → runs (.bcast k c []) fun t =>
        (bits o 39 10 = 0 → eNslot e ≤ 128 → within n 3 y.lastRead = false → ∀ l r, s.ingress k (bits o 2 0) = l :: r →
          t.ingress k (bits o 2 0) = r ∧
          (t.sc k c).evts = (if l.null = true then [] else [(n + 8, .bline ((bits o 9 3 + y.cur.used) % 128) l.data)])))) ∧
    (n % 16 = 15 → ∃ t, exec (.sideReservedSlot k c) s = .next t ∧ (t.sc k c).cur = y.cur ∧ (t.sc k c).next = n + 1 ∧
      (∀ f, s.dueFill k c n = some f → (∃ d : Line, (t.sc k c).evts = [(n + 8, .fill f.line d)]) ∧
        t.fget F.SSK_FILLCNT_COUNT k = F.SSK_FILLCNT_COUNT.up (s.fget F.SSK_FILLCNT_COUNT k)) ∧
      (s.dueFill k c n = none → s.hostPick k c n = none → (t.sc k c).evts = [] ∧ t.mem = s.mem)))

/-- O34. REDUCTION_DEADLINE (R333): at its deadline slot every reduction that is due and not judged is judged: a line that lacks a contribution is poison from
then on.
LEASE_WINDOW_END (R352): the channel takes the lease's banks back, closed; nothing else changes. -/
def Obligations.ReductionsAndLeasesEnd : Prop :=
  (∀ (s : State) (k : Fin 8) (c : Fin 32) (n : Nat), s.nextSlot k c = some n →
     ((s.sc k c).reds.any fun p => !p.2.judged && decide (p.2.deadline ≤ n)) = true →
     (∃ t, exec (.reductionDeadline k c) s = .next t ∧ t = s.finish (s.deadlines k c n) ∧
       (((s.sc k c).reds.map (·.1)).Nodup → ∀ r v, s.red k c r = some v →
         (v.judged = false → v.deadline ≤ n → ∃ w : Red, t.red k c r = some w ∧ w.judged = true ∧ w.lines.length = v.lines.length ∧
           ∀ i (h : i < v.lines.length), w.lines[i]? = some (if (v.cnts[i]?).getD 0 = v.exp then v.lines[i] else List.replicate 64 none)) ∧
         (v.judged = true ∨ n < v.deadline → t.red k c r = some v)) ∧
       (∀ c' : Fin 32, c' ≠ c → t.sc k c' = s.sc k c') ∧ t.mem = s.mem ∧ t.str = s.str) ∧
     ∀ (r : Nat) (v : Red), ∃ w : Red, (s.judge k c r v).red k c r = some w ∧ w.judged = true ∧ w.lines.length = v.lines.length ∧
       ∀ i (h : i < v.lines.length), w.lines[i]? = some (if (v.cnts[i]?).getD 0 = v.exp then v.lines[i] else List.replicate 64 none)) ∧
  (∀ (s : State) (k : Fin 8) (c : Fin 32) (n : Nat) (l : Lease), Quiet s → s.nextSlot k c = some n → (s.sc k c).lease = some l →
     l.start + 25 * l.lenf ≤ n →
     ∃ t, exec (.leaseWindowEnd k c) s = .next t ∧ t = { s with sch := t.sch, vch := t.vch } ∧
       t.sc k c = { s.sc k c with lease := none, pastLease := (l.gmask, n) :: (s.sc k c).pastLease.filter fun p => decide (n < p.2 + 56) } ∧
       (∀ c' : Fin 32, c' ≠ c → t.sc k c' = s.sc k c'))

/-- O35. CACHE_LANE_ACCESS (R336): a lane with a list takes one entry in each cycle; no other lane moves, and memory keeps every byte.
SCB_CTL_WRITE (R365): EN takes the value written, and nothing else changes. -/
def Obligations.CacheLanesAndScarabEnable : Prop :=
  (∀ (s : State) (k : Fin 8) (l : Fin 8), s.str.st = .running → s.stall.frz = none → s.str.starting = false →
     let x : CLane := smGet {} (s.stkOf k).lanes l
     x.cur.live = true → x.next ≤ s.nowS →
     ∃ t, exec (.cacheLaneAccess k l) s = .next t ∧ t = s.finish (s.laneSlot k l) ∧
       (smGet {} (t.stkOf k).lanes l).next = x.next + 1 ∧
       (∀ l' : Fin 8, l' ≠ l → smGet {} (t.stkOf k).lanes l' = smGet {} (s.stkOf k).lanes l') ∧ t.mem = s.mem) ∧
  (∀ (s : State) (k : Fin 4) (en : Bool), Quiet s → s.ready = true →
     ∃ t, exec (.scbCtlWrite k en) s = .next t ∧ t.flag F.SCB_CTL_EN k = en ∧ t = { s with regs := t.regs } ∧ RegsKept s t [Reg.addr .SCB_CTL k 0])

/-! ### The Ittaing link -/

/-- O36. R370: the column of each module, and which of the column's two link ports, 13 for LINK0 and 14 for LINK1, it uses.
R401: the link class of U units is LBCk for k = floor((33 − U) / 2), from 0 to 16, and falls as units are lost.
The training of a module (R398 to R400): TRAIN leads to CHECK, or to FENCED where neither half can carry traffic; the third failed attempt fences;
CHECK leads to ACTIVE once both directions show the recorded width; a fast retrain leads back to ACTIVE. -/
def Obligations.LinkClassAndTraining : Prop :=
  (∀ m < 16, moduleCol m = 11 * m / 16 ∧ (moduleCol m = [0, 0, 1, 2, 2, 3, 4, 4, 5, 6, 6, 7, 8, 8, 9, 10].getD m 0) ∧
     (∀ h, moduleRouter h m = routerAt (11 * m / 16) (linkRow h)) ∧
     (modulePort m = 14 ↔ ∃ m' < m, moduleCol m' = moduleCol m) ∧ (modulePort m = 13 ↔ ∀ m' < m, moduleCol m' ≠ moduleCol m)) ∧
  (linkClassOf 32 = 0 ∧ linkClassOf 0 = 16 ∧ (∀ u, u ≤ 32 → linkClassOf u = (33 - u) / 2 ∧ linkClassOf u ≤ 16) ∧
   (∀ k u, 1 ≤ k → k ≤ 15 → (linkClassOf u = k ↔ u = 32 - 2 * k ∨ u = 33 - 2 * k)) ∧ ∀ u v, u ≤ v → linkClassOf v ≤ linkClassOf u) ∧
  (∀ (s : State) (m : Fin 16) (d : Fin 2) (fail0 fail1 : BitVec 68) (f0 f1 : BitVec 4) (code : BitVec 8), s.powered = true →
     (s.itlState m = LK.TRAIN → (s.itlOf m).fast = none →
       (∃ t, exec (.linkTrainDone m fail0 fail1 f0 f1) s = .next t ∧ (t.itlState m = LK.CHECK ∨ t.itlState m = LK.FENCED) ∧
         t.fget F.ITL_STAT_F0 m = f0.toNat ∧ t.fget F.ITL_STAT_F1 m = f1.toNat ∧ (10 < f0.toNat ∨ 10 < f1.toNat → t.itlState m = LK.FENCED)) ∧
       ((s.itlOf m).since + s.trainLimit ≤ s.cc →
         ∃ t, exec (.linkTrainTimeout m) s = .next t ∧
           (s.fget F.ITL_STAT_ATTEMPT m < 2 → t.itlState m = LK.TRAIN ∧ t.fget F.ITL_STAT_ATTEMPT m = s.fget F.ITL_STAT_ATTEMPT m + 1 ∧
             (t.itlOf m).since = s.cc) ∧
           (2 ≤ s.fget F.ITL_STAT_ATTEMPT m → t.itlState m = LK.FENCED ∧ t.fget F.ITL_STAT_WIDTH m = 0))) ∧
     (s.itlState m = LK.CHECK →
       (code.toNat = (s.itlOf m).prop → d.val ∉ (s.itlOf m).chk → (s.itlOf m).chk.length = 1 →
         ∃ t, exec (.widthchkFlit m d code) s = .next t ∧ t.itlState m = LK.ACTIVE) ∧
       (code.toNat = (s.itlOf m).prop → (s.itlOf m).chk = [] →
         ∃ t, exec (.widthchkFlit m d code) s = .next t ∧ t.itlState m = LK.CHECK ∧ (t.itlOf m).chk = [d.val]) ∧
       (code.toNat ≠ (s.itlOf m).prop →
         ∃ t, exec (.widthchkFlit m d code) s = .next t ∧
           t.itlState m = (if s.fget F.ITL_STAT_ATTEMPT m < 2 then LK.TRAIN else LK.FENCED))) ∧
     ((s.itlOf m).fast.isSome = true →
       ∃ t, exec (.fastRetrainDone m) s = .next t ∧ t.itlState m = LK.ACTIVE ∧ (t.itlOf m).fast = none))

/-- O37. FLIT_LAUNCH, DATA_FLIT, REPLAY_TIMEOUT (R390, R392, R396, R417): a new flit of STREAM, of CONTROL or of DMA takes the next SEQ and at most three lines
of its virtual channel, and stays in the replay buffer; a replay sends the flit that is due again, its eighth attempt retrains the module; an intact flit is taken only in SEQ
order; a corrupt one is counted and not taken; and the sender replays from its oldest unacknowledged flit.
LINE_DUE, REPLAY_STALL_POINT, LATE_LAUNCH (R392 to R394): lines enter the other half at their DUE; a flit missing at its request point holds the
receiving half's request, a line not launched in time the sending half's. -/
def Obligations.FlitsAndLinesGoInOrder : Prop :=
  (∀ (s : State) (m : Fin 16) (d : Fin 2), s.powered = true →
     let x := (s.acks m d).itlDir m d
     let y := s.itlDir m d
     let sent (n : Nat) := x.wire ++ [(s.cc + (s.acks m d).itlF m d, n)]
     ((s.acks m d).canLaunch m d = true → ∃ t, exec (.flitLaunch m d) s = .next t ∧ t = s.finish (s.launchFlit m d) ∧
       (x.again = none → ∃ v, (s.acks m d).nextVc m d = some v ∧
         (v = 0 → t.itlDir m d = { x with
           q := x.q.drop 3, nextSeq := (x.nextSeq + 1) % 4096,
           replay := x.replay ++ [{ seq := x.nextSeq, lines := x.q.take 3, at_ := s.cc }], wire := sent x.nextSeq, busy := x.busyTo s.cc (s.flitTime m) }) ∧
         (v ≠ 0 → t.itlDir m d = { x with
           vq := (x.vq.filter fun l => l.vc ≠ v) ++ (x.vq.filter fun l => l.vc = v).drop 3, nextSeq := (x.nextSeq + 1) % 4096,
           replay := x.replay ++ [{ seq := x.nextSeq, lines := [], at_ := s.cc, vc := v, vls := (x.vq.filter fun l => l.vc = v).take 3 }],
           wire := sent x.nextSeq, busy := x.busyTo s.cc (s.flitTime m) })) ∧
       (∀ n a f, x.again = some (n, a) → (x.replay.find? fun z => z.seq = n) = some f →
         (f.tries + 1 < 8 → (t.itlDir m d).wire = sent n ∧ (t.itlDir m d).q = x.q ∧ (t.itlDir m d).replay.map (·.seq) = x.replay.map (·.seq)) ∧
         (8 ≤ f.tries + 1 → t.itlState m = LK.TRAIN ∧ t.fget F.ITL_STAT_ATTEMPT m = 0))) ∧
     (∀ a n w, y.wire = (a, n) :: w → a ≤ s.cc →
       (n = y.rx → ∃ t, exec (.dataFlit m d false) s = .next t ∧ (t.itlDir m d).rx = (n + 1) % 4096 ∧ (t.itlDir m d).wire = w) ∧
       (n ≠ y.rx → ∃ t, exec (.dataFlit m d false) s = .next t ∧ (t.itlDir m d).rx = y.rx ∧ (t.itlDir m d).wire = w ∧ t.flights = s.flights) ∧
       (∃ t, exec (.dataFlit m d true) s = .next t ∧ (t.itlDir m d).rx = y.rx ∧ (t.itlDir m d).wire = w ∧ t.flights = s.flights ∧
         (if d = 0 then t.fget F.ITL_CRCCNT_DIR0 m = F.ITL_CRCCNT_DIR0.up (s.fget F.ITL_CRCCNT_DIR0 m)
          else t.fget F.ITL_CRCCNT_DIR1 m = F.ITL_CRCCNT_DIR1.up (s.fget F.ITL_CRCCNT_DIR1 m)))) ∧
     (s.replayDue m d = true → ∃ t, exec (.replayTimeout m d) s = .next t ∧
       (t.itlDir m d).again = (x.replay.head?).map (fun f => (f.seq, s.cc)) ∧ (t.itlDir m d).replay = x.replay ∧ x.replay ≠ [])) ∧
  (∀ (s : State) (m : Fin 16) (d : Fin 2),
     (s.str.st = .running → s.stall.frz = none → ((s.itlDir m d).waiting.any fun l => l.tL + 64 = s.nowS) = true →
       ∃ t, exec (.lineDue m d) s = .next t ∧ t = s.finish (s.linesDue m d s.nowS) ∧
         (t.itlDir m d).waiting = (s.itlDir m d).waiting.filter (fun l => l.tL + 64 ≠ s.nowS) ∧ t.mem = s.mem) ∧
     (s.running = true → s.powered = true → s.stallPoint m d = true →
       ∃ t, exec (.replayStallPoint m d) s = .next t ∧
         (∃ r ∈ t.stall.reqs, r.src = 0 ∧ r.unit = 2 * m.val + d.val ∧ r.released = none) ∧ t.stallPoint m d = false ∧ t.str = s.str) ∧
     (s.running = true → s.powered = true → s.isLate m d = true →
       ∃ t, exec (.lateLaunch m d) s = .next t ∧ t = s.finish (s.markLate m d false) ∧ t.isLate m d = false ∧ t.str = s.str ∧
         (t.itlDir m d).q = ((s.itlDir m d).q.map fun l => if l.tL + 16 ≤ s.nowS then { l with late := true } else l) ∧
         ∀ l ∈ (s.itlDir m d).q, l.tL + 16 ≤ s.nowS → ∃ r ∈ t.stall.reqs, r.src = 0 ∧ r.unit = 32 + 2 * l.mod + d.val ∧ r.released = none))

/-- O38. IDLE_FLIT, LANE_LOCK_LOST, FRAMING_LOST (R397, R398): a lane that loses lock is marked failed; lost framing retrains the module fully, its attempts
counted anew; an IDLE flit counts its bit errors with those of the last 2^20 IDLE flits: a lane with sixteen is marked failed, and where no lane has
them the flit only counts.
ITL_RETRAIN and ITL_FENCE (R399, R400): RETRAIN acts in DOWN, ACTIVE and FENCED and starts training with the attempts at 0; FENCE acts in ACTIVE; in any
other state the write has no effect. -/
def Obligations.LinkLanesAndControl : Prop :=
  (∀ (s : State) (m : Fin 16) (d : Fin 2), s.powered = true → s.itlActive m = true →
     (∀ l : Fin 68, ∃ t, exec (.laneLockLost m d l) s = .next t ∧ t = s.finish (s.laneFails m d l) ∧ t.laneFailed m d l = true ∧
       (Quiet s → s.laneFailed m d l = true → t = s)) ∧
     (∃ t, exec (.framingLost m) s = .next t ∧ t.itlState m = LK.TRAIN ∧ t.fget F.ITL_STAT_ATTEMPT m = 0) ∧
     (∀ bad : List (Fin 68), let y := s.itlDir m d
       let errs := (y.errs.filter fun p => decide (y.idles < p.2 + 2 ^ 20)) ++ bad.map fun l => (l.val, y.idles)
       let count (l : Nat) := (errs.filter fun p => p.1 = l).length
       ∃ t, exec (.idleFlit m d bad) s = .next t ∧ t = s.finish (s.idleFlit m d (bad.map Fin.val)) ∧
         (∀ l : Fin 68, 16 ≤ count l → t.laneFailed m d l = true) ∧
         ((∀ l : Fin 68, count l < 16) → t.itlDir m d = { y with idles := y.idles + 1, errs := errs } ∧ t.itlActive m = true ∧
           (Quiet s → t.regs = s.regs ∧ t.raised = s.raised)))) ∧
  (∀ (s : State) (m : Fin 16), Quiet s → s.ready = true →
     (∃ t, exec (.itlRetrain m) s = .next t ∧
       (s.itlState m = LK.DOWN ∨ s.itlState m = LK.ACTIVE ∨ s.itlState m = LK.FENCED → t.itlState m = LK.TRAIN ∧ t.fget F.ITL_STAT_ATTEMPT m = 0) ∧
       (s.itlState m ≠ LK.DOWN → s.itlState m ≠ LK.ACTIVE → s.itlState m ≠ LK.FENCED → t = s)) ∧
     (∃ t, exec (.itlFence m) s = .next t ∧
       (s.itlState m = LK.ACTIVE → t.itlState m = LK.FENCED ∧ t.fget F.ITL_STAT_WIDTH m = 0) ∧ (s.itlState m ≠ LK.ACTIVE → t = s)))

/-- O39. STALL_LANE_FRAME (R100, R388): a frame arrives with the bits that each lane's copy has flipped. One that no bit flips, and one of which a lane in
service has a copy whose CRC holds, keeps the lanes of its direction; one without a good copy loses them all, and the stream is FAULTED. -/
def Obligations.StallLanesCarryOrFault : Prop :=
  ∀ (s : State) (d : Fin 2), s.powered = true → s.stallLanesUp d ≠ [] →
    let good (err : BitVec 32) : Bool := !frameBad (s.stallWord d ^^^ err)
    (∃ t, exec (.stallLaneFrame d 0 0) s = .next t ∧ t.stall.lanes = s.stall.lanes ∧ t.str = s.str ∧ (Quiet s → t.regs = s.regs)) ∧
    (∀ err0 err1, good err0 = false → good err1 = false → ∃ (w t : State), exec (.stallLaneFrame d err0 err1) s = .next t ∧
      t = s.finish w.toFaulted ∧ w.stallLanesUp d = [] ∧ w.str = s.str ∧
      w.raised.length = s.raised.length + (s.stallLanesUp d).length ∧ (s.running = false → t.str.st = .faulted)) ∧
    (∀ err0 err1, (good err0 = true ∧ 0 ∈ s.stallLanesUp d ∨ good err1 = true ∧ 1 ∈ s.stallLanesUp d) →
      (s.stall.laneBad.length < 15) → ∃ t, exec (.stallLaneFrame d err0 err1) s = .next t ∧ t.stall.lanes = s.stall.lanes ∧ t.str = s.str)

/-! ### Ports, connections and sessions -/

/-- O40. PFC_FRAME, DISCARDED_FRAME, ARP (R406, R407): a priority flow control frame sets or clears the pause of exactly the priorities it enables and is
counted; any other pause frame is only counted, another frame is dropped and counted; the port answers for its own addresses alone.
ETH_LINK_CHANGE and ETH_CTL_WRITE (R405, R408, R448): the link of a port comes up at the rate or goes down, and so does its service of the pair where
it carries one; a write of ETH_CTL takes the writable
bits and drops an Ethernet link that is up. -/
def Obligations.EthernetPortsActOnFrames : Prop :=
  (∀ (s : State) (p : Fin 8) (en time : BitVec 8) (pause v6 : Bool) (a : BitVec 128), Quiet s → s.portHears p = true →
     (∃ t, exec (.pfcFrame p en time) s = .next t ∧ t = { s with regs := t.regs } ∧
       (∀ b, (t.fget F.ETH_STAT_PFCRX p).testBit b = if en.getLsbD b then time.getLsbD b else (s.fget F.ETH_STAT_PFCRX p).testBit b) ∧
       t.fget F.ETH_PAUSECNT_RX p = F.ETH_PAUSECNT_RX.up (s.fget F.ETH_PAUSECNT_RX p) ∧
       RegsKept s t [Reg.addr .ETH_STAT p 0, Reg.addr .ETH_PAUSECNT p 0]) ∧
     (∃ t, exec (.discardedFrame p pause) s = .next t ∧ t = { s with regs := t.regs } ∧
       (if pause = true then t.fget F.ETH_PAUSECNT_RX p = F.ETH_PAUSECNT_RX.up (s.fget F.ETH_PAUSECNT_RX p)
        else t.fget F.ETH_RXDROP_COUNT p = F.ETH_RXDROP_COUNT.up (s.fget F.ETH_RXDROP_COUNT p)) ∧
       RegsKept s t [if pause = true then Reg.addr .ETH_PAUSECNT p 0 else Reg.addr .ETH_RXDROP p 0]) ∧
     (∃ t, exec (.arp p v6 a) s = .next t ∧ t = { s with ports := t.ports } ∧
       (t.port p).answered = (if s.ownAddr p v6 a.toNat then some (v6, a.toNat) else (s.port p).answered) ∧
       (∀ q : Fin 8, q ≠ p → t.port q = s.port q))) ∧
  (∀ (s : State) (p : Fin 8) (rate : BitVec 2) (v : BitVec 64),
     (s.portsRun = true → (if rate = 0 then s.flag F.ETH_STAT_LINK p = true else s.flag F.ETH_STAT_LINK p = false ∧ s.rateOk p rate.toNat = true) →
       ∃ t, exec (.ethLinkChange p rate) s = .next t ∧ t = s.finish (s.linkChange p rate.toNat) ∧
         t.flag F.ETH_STAT_LINK p = decide (rate ≠ 0) ∧ t.fget F.ETH_STAT_RATE p = rate.toNat ∧ t.mem = s.mem ∧ t.str = s.str ∧
         (s.flag F.ETH_STAT_MODE p = true → p = 6 → t.flag F.CIC_STAT_P6UP = decide (rate ≠ 0)) ∧
         (s.flag F.ETH_STAT_MODE p = true → p = 7 → t.flag F.CIC_STAT_P7UP = decide (rate ≠ 0))) ∧
     (s.ready = true → ∃ t, exec (.ethCtlWrite p v) s = .next t ∧ t.rget .ETH_CTL p = bits v.toNat 6 4 * 16 + bits v.toNat 2 0 ∧
       (s.flag F.ETH_STAT_MODE p = false → t.flag F.ETH_STAT_LINK p = false) ∧
       (s.flag F.ETH_STAT_MODE p = true → t.flag F.ETH_STAT_LINK p = s.flag F.ETH_STAT_LINK p)))

/-- O41. CM_REQ and CM_RTU (R410, R438): a request takes the lowest free queue pair, which is CONNECTING on that port with no session, its counters 0, and
is answered with its R_Key; before READY, or with none free, the request is rejected. The host's confirmation connects it.
CM_DREQ and QP_ERROR (R413, R429): the queue pair is FREE, or in ERROR; its session is closed, what it had not sent is dropped, and its commands go on
without an answer. -/
def Obligations.ConnectionsComeAndGo : Prop :=
  (∀ (s : State), Quiet s →
     (∀ (p : Fin 8) (x : CmReq), s.portHears p = true → s.ready = false ∨ s.freeQp = none →
       ∃ t, exec (.cmReq p x) s = .next t ∧ t = { s with ports := t.ports } ∧ (t.port p).cm = some .rej ∧
         (t.port p).rx = (s.port p).rx ∧ ∀ p' : Fin 8, p' ≠ p → t.port p' = s.port p') ∧
     (∀ (p : Fin 8) (x : CmReq), s.portHears p = true → s.ready = true →
       (∀ q, s.freeQp = some q → q < 256 ∧ s.fget F.ECP_QPSTAT_STATE q = 0 ∧ (∀ q' < q, s.fget F.ECP_QPSTAT_STATE q' ≠ 0) ∧
         ∃ t, exec (.cmReq p x) s = .next t ∧ t.fget F.ECP_QPSTAT_STATE q = 1 ∧ t.fget F.ECP_QPSTAT_PORT q = p.val ∧
           t.fget F.ECP_QPSTAT_RQPN q = x.rqpn.toNat ∧ t.flag F.ECP_QPSTAT_SESS q = false ∧ t.rget .ECP_CMDCNT q = 0 ∧
           t.rget .ECP_AUTHFAIL q = 0 ∧ t.rget .ECP_EVLOST q = 0 ∧ (t.qp q).sendq = [] ∧ (t.qp q).nonce = none ∧
           (t.port p).cm = some (.rep q (t.qp q).rkey) ∧ t = { s with regs := t.regs, qps := t.qps, ports := t.ports, free := t.free })) ∧
     (∀ q : Fin 256, s.ready = true → s.fget F.ECP_QPSTAT_STATE q = 1 →
       ∃ t, exec (.cmRtu q) s = .next t ∧ t.fget F.ECP_QPSTAT_STATE q = 2 ∧ t = { s with regs := t.regs } ∧ RegsKept s t [Reg.addr .ECP_QPSTAT q 0])) ∧
  (∀ (s : State) (q : Fin 256),
     (s.ready = true → s.fget F.ECP_QPSTAT_STATE q ≠ 0 → ∃ t, exec (.cmDreq q) s = .next t ∧
       t.fget F.ECP_QPSTAT_STATE q = 0 ∧ t.flag F.ECP_QPSTAT_SESS q = false ∧ t.fget F.ECP_SESSION_SESSION q = 0 ∧
       (∀ c ∈ t.cmds, c.qp ≠ q.val) ∧ t.cmds.length = s.cmds.length ∧ t.mem = s.mem ∧ t.str = s.str ∧ t.stall = s.stall) ∧
     (s.awake = true → s.fget F.ECP_QPSTAT_STATE q = 1 ∨ s.fget F.ECP_QPSTAT_STATE q = 2 → ∃ t, exec (.qpError q) s = .next t ∧
       t.fget F.ECP_QPSTAT_STATE q = 3 ∧ t.flag F.ECP_QPSTAT_SESS q = false ∧ t.fget F.ECP_SESSION_SESSION q = 0 ∧
       (∀ c ∈ t.cmds, c.qp ≠ q.val) ∧ t.cmds.length = s.cmds.length ∧ t.mem = s.mem ∧ t.str = s.str ∧ t.stall = s.stall))

/-- O42. RDMA_WRITE, RDMA_READ, INVALID_REQUEST (R89, R91, R411, R412, R417): a request on a connection without a session, with another R_Key or outside the ranges
open to the host is answered with a NAK and changes nothing else; an invalid request likewise; one that passes is taken, marked or not by the network.
A write within one line is stored in scratch, or enters the mesh, or waits in its queue, or crosses the die link as a write header and its data; a write to the input
mailbox takes its slot, and while the stream is RUNNING or STALLED is forwarded to the other half. A read of an output slot or the poll buffer is answered with its bytes;
a read of memory that has to wait waits in the mesh, or in its queue. An access to a mailbox that is no access of its kind changes no byte.
R385: a host line takes the route with columns first, or the one with rows first where that crosses a dark router; where both do, or no port leads to its
place, it completes with ST_ABSENT. While the stream is RUNNING, a slot takes no host line through an output that a scheduled line uses, and leaves every
scheduled line as it is. -/
def Obligations.RdmaIsTakenOrNaked : Prop :=
  (∀ (s : State) (q : Fin 256) (va : BitVec 64) (key : BitVec 32) (ce : Bool) (d : List Byte) (len : BitVec 31), Quiet s → s.rdmaHears q = true →
     let u := if ce = true then s.ceMark q else s
     let a := va.toNat
     let h := halfOfPort (s.qpPort q)
     let naked (i : Instr) (v : State) (code : Nat) : Prop := ∃ t, exec i s = .next t ∧ t = { v with qps := t.qps } ∧
       (t.qp q).sendq = (s.qp q).sendq ++ [{ kind := 0x21, status := code }] ∧ ∀ q', q' ≠ q.val → t.qp q' = s.qp q'
     naked (.invalidRequest q) s 1 ∧
     (d ≠ [] → s.rdmaDenied q key.toNat (hostMayWrite a d.length) = true → naked (.rdmaWrite q va key ce d) u 2) ∧
     (len ≠ 0 → s.rdmaDenied q key.toNat (hostMayRead a len.toNat) = true → naked (.rdmaRead q va key ce len) u 2) ∧
     (d ≠ [] → s.rdmaDenied q key.toNat (hostMayWrite a d.length) = false → hostRegion a ≠ 6 →
       let l : HLine := { write := true, addr := a, len := d.length, data := d, qp := q, since := s.cc }
       ∃ t, exec (.rdmaWrite q va key ce d) s = .next t ∧ t = s.finish (u.startWrite q a d).finishReads ∧
         (a % 64 + d.length ≤ 64 → s.clocked h = true →
           (s.crosses l = true → let m := s.hostModule a
             let x := s.itlDir m h
             (t.itlDir m h).asked = x.asked ++ [(x.tag, l, 0)] ∧ (t.itlDir m h).tag = (x.tag + 1) % 2 ^ 14 ∧
             ∃ v w : VLine, (t.itlDir (s.carrier m) h).vq = (s.itlDir (s.carrier m) h).vq ++ [v, w] ∧ v.kind = some .writeHeader ∧
               w.kind = some .data ∧ v.tag = x.tag % 2 ^ 14 ∧ w.tag = x.tag % 2 ^ 14 ∧
               w.line = padLine (List.replicate (a % 64) 0 ++ d)) ∧
           (s.crosses l = false → s.hostRoute l = true →
             (s.running = true → s.meshRoom l = true → (∀ p ∈ s.ports, p.2.rx = []) →
               ∃ m, s.meshEntry l = some m ∧ m.line = l ∧ t.mesh = s.mesh ++ [m]) ∧
             (s.running = false → s.hostHolds l = true → s.hqRoom (hostQueue a) = true → (∀ p ∈ s.ports, p.2.rx = []) →
               t.hqGet (hostQueue a) = s.hqGet (hostQueue a) ++ [l]) ∧
             (∀ n off, s.hostHolds l = false → placeOf a = .scratch n off → s.present (.scratch n off) = true →
               (∀ i (hi : i < d.length), t.byte (a + i) = d[i]) ∧
               (a % 8 = 0 → d.length % 8 = 0 → ∀ i < d.length, smGet false t.gpois (gran (a + i)) = false))))) ∧
     (d ≠ [] → s.rdmaDenied q key.toNat (hostMayWrite a d.length) = false → hostRegion a = 6 →
       let slot := (a - inSlot 0) / 64
       let new := (s.mbxEntry slot).take (a % 64) ++ d ++ (s.mbxEntry slot).drop (a % 64 + d.length)
       ∃ t, exec (.rdmaWrite q va key ce d) s = .next t ∧
         (windowOk a d.length = false → t.mem = s.mem ∧ t.str = s.str ∧ t.itl = s.itl) ∧
         (windowOk a d.length = true → s.replayStandby = false →
           (s.running = false → (∀ i (hi : i < d.length), t.byte (a + i) = d[i]) ∧ t.itl = s.itl) ∧
           (s.running = true → t.mem = s.mem ∧ { slot := slot, bytes := new, due := s.nowS + 64 } ∈ t.str.pendingMbx ∧
             ∃ v : VLine, (t.itlDir (s.carrier 0) h).vq = (s.itlDir (s.carrier 0) h).vq ++ [v] ∧ v.kind = some .mailbox ∧ v.timed = true ∧
               v.line = new.map some))) ∧
     (len ≠ 0 → s.rdmaDenied q key.toNat (hostMayRead a len.toNat) = false → (s.rdreqs.filter fun r => r.op = 0x20 ∧ r.qp = q.val).length < 16 →
       let n := len.toNat
       let l : HLine := { write := false, addr := a, len := n, qp := q, req := s.nextReq, idx := 0, since := s.cc }
       let fresh : Prop := ∀ r ∈ s.rdreqs, r.req < s.nextReq ∧ r.full = false
       (hostRegion a ≤ 3 ∨ windowOk a n = true →
         ∃ t, exec (.rdmaRead q va key ce len) s = .next t ∧ t = s.finish (u.startRead 0x20 q 0 0 a n).2.finishReads ∧
           t.nextReq = s.nextReq + 1 ∧ (fresh →
           (4 ≤ hostRegion a → (t.qp q).sendq = (s.qp q).sendq ++ [{ kind := 0x20, body := s.bytes a n }] ∧ t.rdreqs = s.rdreqs) ∧
           (hostRegion a ≤ 3 → a % 64 + n ≤ 64 → s.clocked h = true → s.crosses l = false → s.hostRoute l = true → (∀ p ∈ s.ports, p.2.rx = []) →
             s.running = true ∧ s.meshRoom l = true ∨ s.running = false ∧ s.hostHolds l = true ∧ s.hqRoom (hostQueue a) = true →
             (s.running = true → ∃ m, s.meshEntry l = some m ∧ m.line = l ∧ t.mesh = s.mesh ++ [m]) ∧
             (s.running = false → t.hqGet (hostQueue a) = s.hqGet (hostQueue a) ++ [l]) ∧ (t.qp q).sendq = (s.qp q).sendq ∧ t.rdreqs = s.rdreqs ++
               [{ req := s.nextReq, op := 0x20, qp := q, session := 0, tag := 0, addr := a, len := n, lines := 1 }]))) ∧
       (4 ≤ hostRegion a → windowOk a n = false → ∃ t, exec (.rdmaRead q va key ce len) s = .next t ∧ t.mem = s.mem ∧ t.str = s.str ∧
         ∃ m : Msg, (t.qp q).sendq = (s.qp q).sendq ++ [m] ∧ m.kind = 0x20 ∧ m.body.length = n)) ∧
     (len ≠ 0 → s.rdmaDenied q key.toNat (hostMayRead a len.toNat) = false → 16 ≤ (s.rdreqs.filter fun r => r.op = 0x20 ∧ r.qp = q.val).length →
       naked (.rdmaRead q va key ce len) u 1) ∧
     (s.flag F.ECP_QPSTAT_SESS q = false → s.rdmaDenied q key.toNat (hostMayRead a len.toNat) = true)) ∧
  (∀ s : State,
     (∀ h a b, let lit (rows : Bool) : Bool := (meshRoute a b rows).all fun p => !s.routerDark (66 * h + p)
       s.hostRows h a b = if lit false = true then some false else if lit true = true then some true else none) ∧
     (∀ l, s.meshEntry l = none → s.meshLine l = s.failHostLine l ST.ABSENT) ∧
     (∀ used, s.running = true → s.stall.frz = none →
       (s.meshSlot used).flights = s.flights ∧
       ∀ m ∈ s.mesh, m.key ∈ used → s.routerDark (66 * m.half + m.pos) = false →
         (m.pos = m.dest ∨ s.routerDark (66 * m.half + (meshNext m.pos m.out).1) = false) → m ∈ (s.meshSlot used).mesh))

/-- O43. ROCE_ACK and LOCAL_ACK_TIMEOUT (R410, R413, R421): acknowledged messages leave the queue pair in order, oldest first; after a NAK (kind 1), or without an
acknowledgement in time, the rest is sent again, until the retry count is exhausted, and then the queue pair is in ERROR; an RNR NAK (kind 2) counts against a
count of its own, of which 7 has no end.
NONCE_LAPSE, AUTHLOCK_EXPIRE (R428): a nonce is gone 100 ms after SESSION_OPEN, a lockout 1 s after it began, and no earlier; MALFORMED_MESSAGE (R421)
answers ST_MSG and counts a refusal; HOST_LINE_TIMEOUT (R415) ends the oldest line that is late. -/
def Obligations.MessagesAndHostDeadlines : Prop :=
  (∀ (s : State) (q : Fin 256) (n : BitVec 24), Quiet s → s.awake = true → s.fget F.ECP_QPSTAT_STATE q = 2 →
     (∃ t, exec (.roceAck q 0 n) s = .next t ∧ (t.qp q).sendq = (s.qp q).sendq.drop n.toNat ∧ (n ≠ 0 → (t.qp q).retries = 0) ∧
       t = { s with qps := t.qps } ∧ ∀ q', q' ≠ q.val → t.qp q' = s.qp q') ∧
     (let r := if n = 0 then (s.qp q).retries else 0
       let k := if n = 0 then (s.qp q).rnrs else 0
       let rest (t : State) : Prop := (t.qp q).sendq = (s.qp q).sendq.drop n.toNat ∧ t = { s with qps := t.qps } ∧ ∀ q', q' ≠ q.val → t.qp q' = s.qp q'
       (∃ t, exec (.roceAck q 1 n) s = .next t ∧ ((s.qp q).retryCount ≤ r → t.fget F.ECP_QPSTAT_STATE q = 3) ∧
         (r < (s.qp q).retryCount → (t.qp q).retries = r + 1 ∧ rest t)) ∧
       (∃ t, exec (.roceAck q 2 n) s = .next t ∧ ((s.qp q).rnrRetry ≠ 7 → (s.qp q).rnrRetry ≤ k → t.fget F.ECP_QPSTAT_STATE q = 3) ∧
         ((s.qp q).rnrRetry = 7 ∨ k < (s.qp q).rnrRetry → (t.qp q).rnrs = k + 1 ∧ rest t))) ∧
     ((s.qp q).sendq ≠ [] →
       ((s.qp q).retryCount ≤ (s.qp q).retries → ∃ t, exec (.localAckTimeout q) s = .next t ∧ t.fget F.ECP_QPSTAT_STATE q = 3) ∧
       ((s.qp q).retries < (s.qp q).retryCount → ∃ t, exec (.localAckTimeout q) s = .next t ∧ (t.qp q).sendq = (s.qp q).sendq ∧
         (t.qp q).retries = (s.qp q).retries + 1 ∧ t = { s with qps := t.qps } ∧ ∀ q', q' ≠ q.val → t.qp q' = s.qp q'))) ∧
  (∀ (s : State) (q : Fin 256), Quiet s → s.awake = true →
     (∀ nonce num since, (s.qp q).nonce = some (nonce, num, since) →
       ∃ t, exec (.nonceLapse q) s = .next t ∧ (since + 96000000 ≤ s.cc → (t.qp q).nonce = none ∧ (t.qp q).sendq = (s.qp q).sendq) ∧
         (s.cc < since + 96000000 → t = s) ∧ t = { s with qps := t.qps } ∧ ∀ q', q' ≠ q.val → t.qp q' = s.qp q') ∧
     (s.flag F.ECP_QPSTAT_LOCK q = true → ∃ t, exec (.authlockExpire q) s = .next t ∧
       ((s.qp q).lockedAt + 960000000 ≤ s.cc → t.flag F.ECP_QPSTAT_LOCK q = false) ∧ (s.cc < (s.qp q).lockedAt + 960000000 → t = s) ∧
       t = { s with regs := t.regs } ∧ RegsKept s t [Reg.addr .ECP_QPSTAT q 0]) ∧
     (∀ (h : EcpHdr) (op : BitVec 16), s.hears h.qp = true → s.life.warm = false →
       ∃ t, exec (.malformedMessage h op) s = .next t ∧ (∃ m, (t.qp h.qp).sendq = (s.qp h.qp).sendq ++ [m] ∧ m.kind = 2 ∧ m.op = op.toNat ∧
         m.status = ST.MSG ∧ m.done = true) ∧
         t.fget F.ECP_CMDCNT_REFUSED h.qp = F.ECP_CMDCNT_REFUSED.up (s.fget F.ECP_CMDCNT_REFUSED h.qp) ∧
         t = { s with regs := t.regs, qps := t.qps } ∧ RegsKept s t [Reg.addr .ECP_CMDCNT h.qp 0]) ∧
     (∀ l rest, s.powered = true → s.lateLines = l :: rest →
       ∃ t, exec .hostLineTimeout s = .next t ∧ t = s.finish ((s.timeoutLine l).pullPorts.finishReads) ∧
         ((∀ p ∈ s.ports, p.2.rx = []) → (∀ x ∈ s.itl, ∀ y ∈ x.2.dirs, y.2.buf = []) →
           t.hqGet (hostQueue l.addr) = (s.hqGet (hostQueue l.addr)).filter (fun x => decide (x ≠ l)) ∧
           (∀ k, k ≠ hostQueue l.addr → t.hqGet k = s.hqGet k) ∧ t.str = s.str ∧ t.mem = s.mem ∧
           (l.write = false → l.back = none → ∀ r ∈ s.rdreqs, r.req = l.req → r.got.length + 1 < r.lines →
             { r with got := r.got ++ [(l.idx, List.replicate 64 none, ST.TIMEOUT)] } ∈ t.rdreqs))))

/-! ### Registers -/

/-- O44. ERROR_RECORD_CLEAR and COUNTER_CLEAR (R21, R22, R535): a record's VALID bit, written with 1, returns the registers of that record to their reset values and
no others, unless the device has set the bit in the same SCLK cycle: a first-error record then holds the error of that cycle, and another record
stays; the bits of a CTRCLR register clear the counters that they name and no others. -/
def Obligations.ClearsReachTheirOwnRegisters : Prop :=
  ∀ (s : State) (addr v : BitVec 64) (r : Reg) (i k : Nat), Quiet s → s.ready = true → regAt addr.toNat = .reg r i k →
    (∀ b rs, recordOf r = some (b, rs) → ∃ t, exec (.errorRecordClear addr) s = .next t ∧ t = { s with regs := t.regs } ∧
      RegsKept s t (Reg.addr .CIC_DIVLOG0 0 0 :: Reg.addr .CIC_DIVLOG1 0 0 :: Reg.addr .CIC_DIVLOG2 0 0 :: rs.map fun x => x.addr i k) ∧
      ((s.w1cNow (r.addr i k)).bits = 0 → ∀ x ∈ rs, t.rget x i k = x.info.reset % 2 ^ 64) ∧
      ((s.w1cNow (r.addr i k)).bits ≠ 0 → (rs.length ≠ 3 → t = s) ∧ ∀ ar sr cr, rs = [ar, sr, cr] →
        let x := s.w1cNow (r.addr i k)
        t.rget ar i = x.addr % 2 ^ 64 ∧ t.rget sr i = (x.stat + 1) % 2 ^ 64 ∧ t.rget cr i = x.more % 2 ^ 64)) ∧
    (ctrRegs r ≠ [] → ∃ t, exec (.counterClear addr v) s = .next t ∧ t = { s with regs := t.regs } ∧
      (∀ j (h : j < (ctrRegs r).length), v.toNat.testBit j = true → (ctrRegs r)[j] ≠ .ITL_LATECNT ∨ i = 0 → t.rget (ctrRegs r)[j] i 0 = 0) ∧
      RegsKept s t (((ctrRegs r).zipIdx.filter fun p => v.toNat.testBit p.2).map fun p => p.1.addr i 0))

/-- O45. REGISTER_WRITE and SNS_CLEAR (R18, R19, R21, R115, R488): a register whose write does no more than store takes the value bit by bit by its access types, and
nothing else changes; an address that is no multiple of 8 is an error that STR logs for a mailbox window and SYS for any other, one at which nothing
lies an error that SYS logs, and no register of a block takes the value; the output slots and the poll buffer take no write, and a mailbox slot takes
its 8 bytes as MAILBOX_WRITE does; a table window takes 8 bytes unless the stream locks it; SNS_CLEAR ends the
suspicion of both sensors of the instances named. -/
def Obligations.RegisterSpaceWrites : Prop :=
  ∀ (s : State) (addr v : BitVec 64), s.ready = true →
    exec (.registerWrite addr v) s = .next (s.finish (s.regWrite addr.toNat v.toNat).2) ∧
    (∀ (r : Reg) (i k : Nat), Quiet s → regAt addr.toNat = .reg r i k → r.acts = false → (s.w1cNow (r.addr i k)).bits = 0 →
      ∃ t, exec (.registerWrite addr v) s = .next t ∧ t = { s with regs := t.regs } ∧ RegsKept s t [r.addr i k] ∧
        ∀ b < 64, (t.rget r i k).testBit b =
          if (r.info.rw.testBit b || r.info.rwl.testBit b && !s.locked) = true then v.getLsbD b
          else (s.rget r i k).testBit b && !(r.info.w1c.testBit b && v.getLsbD b)) ∧
    (addr.toNat % 8 ≠ 0 → s.regWrite addr.toNat v.toNat = (ST.UNALIGNED,
      if mailboxWindow addr.toNat = true then s.errSTR addr.toNat ST.UNALIGNED 7 else s.errSYS addr.toNat ST.UNALIGNED 1)) ∧
    (regAt addr.toNat = .readOnly → s.regWrite addr.toNat v.toNat = (ST.ABSENT, s.errSTR addr.toNat ST.ABSENT 7)) ∧
    (regAt addr.toNat = .mailbox → let off := addr.toNat - inSlot 0
      s.regWrite addr.toNat v.toNat = (if s.replayStandby = true then ST.STATE else ST.OK,
        s.mailboxWrite (off / 64) (off % 64) (leBytes 8 v.toNat))) ∧
    (regAt addr.toNat = .nothing → s.regWrite addr.toNat v.toNat = (ST.ABSENT, s.errSYS addr.toNat ST.ABSENT 2)) ∧
    (regAt addr.toNat = .table →
      (s.locked = true → s.regWrite addr.toNat v.toNat = (ST.LOCKED, s)) ∧
      (s.locked = false → (s.regWrite addr.toNat v.toNat).1 = ST.OK ∧ (s.regWrite addr.toNat v.toNat).2.nat addr.toNat 8 = v.toNat)) ∧
    (∀ inst : BitVec 8, inst.toNat < 136 → Quiet s → ∃ t, exec (.snsClear false inst) s = .next t ∧
      t.fget F.THM_SNS_SUSA inst.toNat = 0 ∧ t.fget F.THM_SNS_SUSB inst.toNat = 0 ∧ t = { s with regs := t.regs, pow := t.pow } ∧
      RegsKept s t [Reg.addr .THM_SNS inst.toNat 0]) ∧
    (∀ inst : BitVec 8, 136 ≤ inst.toNat → Quiet s → exec (.snsClear false inst) s = .next s) ∧
    (∀ inst : BitVec 8, Quiet s → ∃ t, exec (.snsClear true inst) s = .next t ∧
      (∀ i < 136, t.fget F.THM_SNS_SUSA i = 0 ∧ t.fget F.THM_SNS_SUSB i = 0) ∧ t = { s with regs := t.regs, pow := t.pow } ∧
      RegsKept s t ((List.range 136).map fun i => Reg.addr .THM_SNS i 0))

/-! ### Bring-up, resets, Molt and self-test -/

/-- O46. COLD_RESET, AON_REMOVED, AON_IN_RANGE (R520, R497): a cold reset keeps the fuses, the licences, the owner key and the black box, and ends everything
else; the loss of VDD_AON keeps the protected store, the fuses and what the black box has written; only a Molt that was to write fuse records may
have written some by then (R518, R524). The straps are sampled when VDD_AON comes back. -/
def Obligations.ColdResetKeepsTheProtectedStore : Prop :=
  ∀ s : State,
    (s.life.aon = true → s.life.resetN = true → s.flag F.PWR_SHUT_LATCH = false → ∃ t, exec .coldReset s = .next t ∧
      ((∀ m, s.life.molt = some m → m.records = []) → t.life.slots = s.life.slots ∧ t.bbr = s.bbr) ∧
      t.life.grants = s.life.grants ∧ t.life.revoked = s.life.revoked ∧ t.mgmt = s.mgmt ∧
      t.rget .LIC_SVCTIME = s.rget .LIC_SVCTIME ∧ t.mem = [] ∧ t.undef = [] ∧ t.str.st = .idle ∧ t.phase = 0 ∧ t.qps = [] ∧ t.cmds = [] ∧
      t.hq = [] ∧ t.cores = [] ∧ t.life.resetN = false ∧ t.life.molt = none ∧ t.life.lbist = none ∧ t.pst = PS.OFF) ∧
    (s.life.aon = true → ∃ t, exec .aonRemoved s = .next t ∧
      ((∀ m, s.life.molt = some m → m.records = []) → t.life.slots = s.life.slots) ∧ t.life.grants = s.life.grants ∧ t.life.revoked = s.life.revoked ∧ t.mgmt.key = s.mgmt.key ∧
      t.bbr.devA = s.bbr.devA ∧ t.bbr.devB = s.bbr.devB ∧ t.bbr.queue = [] ∧ t.bbr.cur = none ∧ t.mem = [] ∧ t.life.aon = false ∧
      t.flag F.PWR_SHUT_LATCH = false) ∧
    (s.life.aon = false → ∀ straps : BitVec 3, ∃ t, exec (.aonInRange straps) s = .next t ∧ t.life.aon = true ∧
      t.life.straps = straps.toNat ∧ t.life.trip = false ∧ t.life.slots = s.life.slots ∧ t.mem = s.mem)

/-- O47. BRINGUP, PHASE_DONE, PHASE_TIMEOUT (R502 to R505): bring-up starts in phase 1, or stops there in test mode; the phases follow each other to READY;
phase 1 and phase 2 may stop it, and FAILPH then holds the phase. -/
def Obligations.BringUpGoesPhaseByPhase : Prop :=
  ∀ (s : State) (test : Bool) (x : PhaseIn),
    (s.life.aon = true → s.flag F.PWR_SHUT_LATCH = false → s.phase = 0 ∨ s.life.resetN = false → s.life.powerFailed = false →
      ∃ t, exec (.bringup test) s = .next t ∧ t.life.resetN = true ∧ t.life.pwrgood = true ∧ t.life.phaseStart = s.cc ∧
        (test = false → t.phase = 1) ∧ (test = true → t.phase = 0xF ∧ t.fget F.BST_BRINGUP_FAILPH = 1)) ∧
    (s.inPhase = true → s.phase ≠ 5 ∨ s.linkReady = true → s.cc ≤ s.life.phaseStart + 960000 * phaseMax s.phase →
      ∃ t, exec (.phaseDone x) s = .next t ∧ t = s.finish (s.phaseEnds x) ∧
        (s.phase ∈ [3, 4, 6, 7, 8] ∨ s.phase ∈ [1, 2] ∧ x.stop = false → t.phase = s.phase + 1) ∧ (s.phase = 9 → t.phase = 0xA) ∧
        (s.phase ∈ [1, 2] → x.stop = true → t.phase = 0xF ∧ t.fget F.BST_BRINGUP_FAILPH = s.phase)) ∧
    (s.inPhase = true → s.life.phaseStart + 960000 * phaseMax s.phase ≤ s.cc →
      ∃ t, exec (.phaseTimeout x) s = .next t ∧ (s.phase ≠ 5 → t = s.finish (s.phaseEnds x)) ∧ (s.phase ∈ [3, 4, 6, 7, 8] → t.phase = s.phase + 1))

/-- O48. WARM_RESET (R423, R520, R521).
WARM_RESET_PIN, WARM_RESET_DONE, PLL_UNLOCK (R46, R520 to R522): a warm reset leaves the stream IDLE with no core, lease or link line in progress, and
keeps fuses, licences, key and queue pairs' connections; when it ends, the device takes commands again; after a PLL unlock the divided clocks of its half
stand, and only a cold reset helps. -/
def Obligations.WarmResetsLeaveTheStreamIdle : Prop :=
  (∀ (s : State) (h : EcpHdr), s.hearsReset h.qp = true → Takes s h OP.WARM_RESET GRP_REPAIR false true →
     let u := s.taken h
     (s.flag F.PWR_SHUT_LATCH = false → s.life.unlocked = true →
       exec (.warmReset h) s = .next (s.finish (u.answer h OP.WARM_RESET GRP_REPAIR [] [] (some (ST.CLOCK, []))))) ∧
     (s.flag F.PWR_SHUT_LATCH = false → s.life.unlocked = false →
       exec (.warmReset h) s = .next (s.finish (u.warmBegin.answer h OP.WARM_RESET GRP_REPAIR [] [] none)) ∧
       u.warmBegin.life.warm = true ∧ u.warmBegin.str.st = .idle ∧ ∀ c ∈ u.warmBegin.cmds, c.op = OP.WARM_RESET)) ∧
  (∀ s : State,
     (s.ready = true → s.life.warmN = true → s.life.unlocked = false → s.life.warm = false → ∃ t, exec .warmResetPin s = .next t ∧
       t.life.warm = true ∧ t.str.st = .idle ∧ t.str.pendingMbx = [] ∧ t.sch = [] ∧ t.life.lbist = none) ∧
     (s.life.unlocked = true → exec .warmResetPin s = .next s) ∧
     (s.life.warm = true → s.awake = true → s.powered = true → s.life.molt = none → ∃ t, exec .warmResetDone s = .next t ∧
       t.life.warm = false ∧ t.life.warmN = true ∧ t.mem = s.mem ∧ t.str = s.str ∧ t.cores = s.cores) ∧
     (∀ half : Fin 2, s.awake = true → s.powered = true → s.fget F.BST_BRINGUP_PHASE = 0xA → s.flag F.PWR_SHUT_LATCH = false →
       ∃ t, exec (.pllUnlock half) s = .next t ∧ (s.running = false → t.life.unlocked = true ∧ half.val ∈ t.life.stopped ∧ t.str.st = .faulted) ∧
         ∃ u : State, t = s.finish u ∧ u.raised.length =
           (State.toFaulted { s with life := { s.life with unlocked := true, stopped := half.val :: s.life.stopped } }).raised.length + 2))

/-- O49. MOLT_HALF, HALF_RESET, LBIST_RUN and what ends them (R510, R514, R521, R530 to R533): each is refused under the latch, for a half that does not exist,
after a PLL unlock and while the stream holds the registers locked; else it is in progress from then on, and its end leaves the half free.
MOLT_DONE, HALF_RESET_DONE, LBIST_DONE (R514, R521, R531, R533): with the link's modules carrying traffic or fenced, the end of a Molt or a half reset
leaves no repair in progress; LBIST's end marks a cluster failed exactly where its signature differs. -/
def Obligations.RepairsBeginAndEnd : Prop :=
  (∀ (s : State) (h : EcpHdr) (half : BitVec 8) (commit : Bool) (pmask : BitVec 128), s.hears h.qp = true →
     let u := s.taken h
     (∀ st, u.repairRefusal half.toNat = some st →
       (Takes s h OP.MOLT_HALF GRP_REPAIR false false →
         exec (.moltHalf h half commit) s = .next (s.finish (u.answer h OP.MOLT_HALF GRP_REPAIR [half.toNat] [] (some (st, []))))) ∧
       (Takes s h OP.HALF_RESET GRP_REPAIR false false →
         exec (.halfReset h half) s = .next (s.finish (u.answer h OP.HALF_RESET GRP_REPAIR [half.toNat] [] (some (st, [])))))) ∧
     (u.repairRefusal half.toNat = none →
       (Takes s h OP.MOLT_HALF GRP_REPAIR false false → ∃ v m,
         exec (.moltHalf h half commit) s = .next (s.finish (State.answer v h OP.MOLT_HALF GRP_REPAIR [half.toNat] [] none)) ∧
         v.life.molt = some m ∧ m.half = half.toNat ∧ m.commit = commit ∧ m.resetOnly = false) ∧
       (Takes s h OP.HALF_RESET GRP_REPAIR false false → ∃ v m,
         exec (.halfReset h half) s = .next (s.finish (State.answer v h OP.HALF_RESET GRP_REPAIR [half.toNat] [] none)) ∧
         v.life.molt = some m ∧ m.half = half.toNat ∧ m.resetOnly = true)) ∧
     (Takes s h OP.LBIST_RUN GRP_REPAIR false false →
       (∀ st, u.lbistRefusal half.toNat pmask.toNat = some st →
         exec (.lbistRun h half pmask) s = .next (s.finish (u.answer h OP.LBIST_RUN GRP_REPAIR [half.toNat] [] (some (st, []))))) ∧
       (u.lbistRefusal half.toNat pmask.toNat = none → ∃ v r,
         exec (.lbistRun h half pmask) s = .next (s.finish (State.answer v h OP.LBIST_RUN GRP_REPAIR [half.toNat] [] none)) ∧
         v.life.lbist = some r ∧ r.half = half.toNat ∧ v.flag F.BST_LBSTAT_BUSY half.toNat = true)) ∧
     (1 < half.toNat → ∃ st, u.lbistRefusal half.toNat pmask.toNat = some st ∧ ∃ st', u.repairRefusal half.toNat = some st')) ∧
  (∀ (s : State) (x : MoltIn) (m : Molt) (fails : List (Fin 66)) (r : Lbist), s.awake = true → s.powered = true →
     (s.life.warm = false → s.life.molt = some m → s.linkReady = true →
       (m.resetOnly = false → ∃ t, exec (.moltDone x) s = .next t ∧ t = s.finish (s.moltDone m x) ∧ t.life.molt = none ∧
         t.flag F.MLT_STAT_BUSY m.half = false) ∧
       (m.resetOnly = true → ∃ t, exec (.halfResetDone x) s = .next t ∧ t.life.molt = none)) ∧
     (s.life.lbist = some r → r.half < 2 → (∀ p ∈ r.under, p < 66) → r.under.Nodup → ∃ t, exec (.lbistDone fails) s = .next t ∧ t.life.lbist = none ∧
       t.flag F.BST_LBSTAT_BUSY r.half = false ∧ t.mem = s.mem ∧
       ∀ p ∈ r.under, t.lbistBad r.half p = fails.any fun f => f.val = p))

/-- O50. R512: the map that a Molt builds gives each of the half's logical clusters at most one usable physical cluster, none of them twice; the mapped ones
come first; as many are mapped as there are usable clusters, up to all of them. -/
def Obligations.MoltMapIsSound : Prop :=
  ∀ (on thr : List Nat) (old : List (Option Nat)), old.length = 64 → on.Nodup → thr.Nodup → (∀ p ∈ on, p ∉ thr) →
    let m := moltMap on thr old
    m.length = 64 ∧ (∀ p, some p ∈ m → p ∈ on ∨ p ∈ thr) ∧
    (∀ (i j : Nat) (p : Nat), m[i]? = some (some p) → m[j]? = some (some p) → i = j) ∧
    (∀ (i j : Nat) (p : Nat), i < j → m[j]? = some (some p) → m[i]? ≠ some none) ∧
    (m.filter Option.isSome).length = min 64 (on.length + thr.length)

/-- O51. R517: a fuse slot has exactly one class: EMPTY without a blown fuse; CONSUMED with fewer than two valid fuses; with two or more, VALID where the CRC
and the type are right and BAD otherwise. -/
def Obligations.FuseSlotClasses : Prop :=
  ∀ (x : FuseSlot) (i : Nat),
    (x.cls i = FZ.EMPTY ↔ x.data = 0 ∧ x.v = 0) ∧
    (x.data ≠ 0 → x.valids < 2 → x.cls i = FZ.CONSUMED) ∧
    (2 ≤ x.valids → (x.cls i = FZ.VALID ↔ bits x.data 127 120 = fuseCrc x.data i ∧ 1 ≤ bits x.data 3 0 ∧ bits x.data 3 0 ≤ 5) ∧
      (x.cls i = FZ.VALID ∨ x.cls i = FZ.BAD)) ∧
    (x.cls i ≤ 3)

/-! ### Power and cooling -/

/-- O52. REGULATOR_FAIL and DROOP (R475, R476, R478): a failed regulator is marked; with three working an ON cluster is in THREE, with two or fewer it is DARK.
A droop below the record is the record, with its SCNT and the controller's time.
CHRYSALIS_ENTER, CHRYSALIS_EXIT, CHRYSALIS_PHASE_END (R480, R21): a cluster ON or in THREE is ENTERING for 20 µs and then in CHRYSALIS; one in CHRYSALIS
is LEAVING for 20 µs and then ON, or in THREE where a regulator has failed; a write in any other state, or while the stream locks the register, has no
effect. -/
def Obligations.ClusterPowerFollowsItsEvents : Prop :=
  (∀ (s : State) (pi : Fin 132) (r : Fin 4) (vret : Bool) (code : BitVec 8), s.awake = true →
     ((s.fget F.PWR_CLSTAT_ODRFAIL pi).testBit r = false → ∃ t, exec (.regulatorFail pi r vret) s = .next t ∧
       t.fget F.PWR_CLSTAT_ODRFAIL pi = s.fget F.PWR_CLSTAT_ODRFAIL pi ||| 2 ^ r.val ∧
       (t.working pi = 3 → s.fget F.PWR_CLSTAT_STATE pi = CL.ON → t.fget F.PWR_CLSTAT_STATE pi = CL.THREE) ∧
       (t.working pi ≤ 2 → t.fget F.PWR_CLSTAT_STATE pi = CL.DARK)) ∧
     (code.toNat < s.fget F.PWR_VMIN_CODE pi r → ∃ t, exec (.droop pi r code) s = .next t ∧ t.fget F.PWR_VMIN_CODE pi r = code.toNat ∧
       t.fget F.PWR_VMIN_SCNT pi r = s.str.scnt.toNat % 2 ^ 48 ∧ t.rget .PWR_VMINT pi r = s.utime % 2 ^ 64 ∧ t.mem = s.mem ∧ t.str = s.str) ∧
     (s.fget F.PWR_VMIN_CODE pi r ≤ code.toNat → exec (.droop pi r code) s = .next s)) ∧
  (∀ (s : State) (pi : Fin 132), Quiet s → let st := s.fget F.PWR_CLSTAT_STATE pi
     (s.ready = true →
       (s.locked = true → exec (.chrysalisEnter pi) s = .next s ∧ exec (.chrysalisExit pi) s = .next s) ∧
       (s.locked = false → st = CL.ON ∨ st = CL.THREE → ∃ t, exec (.chrysalisEnter pi) s = .next t ∧
         t.fget F.PWR_CLSTAT_STATE pi = CL.ENTERING ∧ (pi.val, s.cc + 19200) ∈ t.pow.phases ∧ t.mem = s.mem) ∧
       (st ≠ CL.ON → st ≠ CL.THREE → exec (.chrysalisEnter pi) s = .next s) ∧
       (s.locked = false → st = CL.CHRYSALIS → ∃ t, exec (.chrysalisExit pi) s = .next t ∧
         t.fget F.PWR_CLSTAT_STATE pi = CL.LEAVING ∧ (pi.val, s.cc + 19200) ∈ t.pow.phases ∧ t.mem = s.mem) ∧
       (st ≠ CL.CHRYSALIS → exec (.chrysalisExit pi) s = .next s)) ∧
     ((s.pow.phases.any fun p => p.1 = pi.val && decide (p.2 ≤ s.cc)) = true →
       ∃ t, exec (.chrysalisPhaseEnd pi) s = .next t ∧ t = s.finish (s.phaseEnd pi) ∧ (∀ p ∈ t.pow.phases, p.1 ≠ pi.val) ∧
         (st = CL.ENTERING → t.fget F.PWR_CLSTAT_STATE pi = CL.CHRYSALIS ∧ t.mem = s.mem ∧ t.str = s.str) ∧
         (st = CL.LEAVING → t.fget F.PWR_CLSTAT_STATE pi = (if s.working pi = 4 then CL.ON else CL.THREE))))

/-- O53. The power commands (R469, R473, R483, R490 to R494): POWER_FAIL ends the device's run on input power and any Molt; POWER_CAP_EVAL takes the measured
power, keeps its maximum and sets the gating of the law; a tray post gives the coolant's temperatures and flow, one with a bad PEC is only counted, one
without a valid INLET and FLOW is ignored; telemetry older than 0.5 s is stale; a rail sample gives the currents and voltages, and a rail out of its range for 100 µs
raises its event; a thermal evaluation takes the sensors' readings.
R493: the law's gating is the smallest that keeps the estimated power within the cap, or 15, but never eases by more than one sixteenth. -/
def Obligations.PowerCommandsAct : Prop :=
  (∀ (s : State), s.awake = true →
     (∀ (cause : BitVec 3) (v0 v1 : BitVec 16), s.life.powerFailed = false → cause ≠ 0 → ∃ t, exec (.powerFail cause v0 v1) s = .next t ∧
       t.life.powerFailed = true ∧ t.life.molt = none ∧ t.mem = s.mem ∧ t.str = s.str) ∧
     (∀ x : RailIn, ∃ t, exec (.railSample x) s = .next t ∧ t = s.finish (s.railSample x) ∧
       (∀ (h : Fin 2) (a b c : Nat), x.amps[h.val]? = some (a, b, c) → t.fget F.PWR_RAIL_IIN 0 h = a % 2 ^ 16 ∧
         t.fget F.PWR_RAIL_IVLT 0 h = b % 2 ^ 16 ∧ t.fget F.PWR_RAIL_ISTK 0 h = c % 2 ^ 16) ∧
       (∀ u mv, x.volts = [(u, mv)] → u < 15 →
         (u = 1 ∨ u = 2 → t.fget F.PWR_RAIL_VIN 0 (u - 1) = mv % 2 ^ 16) ∧
         ((railOf u).1 ≤ mv → mv ≤ (railOf u).2 → ∀ p ∈ t.pow.rails, p.1 ≠ u) ∧
         (mv < (railOf u).1 ∨ (railOf u).2 < mv →
           ((∀ p ∈ s.pow.rails, p.1 ≠ u) → (u, s.cc, false) ∈ t.pow.rails) ∧
           (∀ c, (s.pow.rails.find? fun p => p.1 = u) = some (u, c, false) → c + 96000 < s.cc → (u, c, true) ∈ t.pow.rails ∧
             (Quiet s → s.raised = [] → ∃ e ∈ t.raised, e.ev = .rail ∧ e.src = srcUnit u 0 0 mv)))) ∧
       (x.volts = [] → x.amps = [] → s.railSample x = s) ∧ t.mem = s.mem ∧ t.str = s.str) ∧
     (∀ x : ThermIn, ∃ t, exec (.thermalEval x) s = .next t ∧ t = s.finish (s.thermalEval x) ∧
       (∀ i u a b, i < 136 → s.thermUnit i = some u → smGet (0, 0) (smPuts (0, 0) s.pow.snsr (x.snsr.filter fun p => decide (p.1 < 140))) u = (a, b) →
         t.fget F.THM_SNS_SA i = unsext 16 a ∧ t.fget F.THM_SNS_SB i = unsext 16 b) ∧
       (t.flag F.PWR_SHUT_LATCH = s.flag F.PWR_SHUT_LATCH → t.mem = s.mem ∧ t.str = s.str ∧ ∀ n c, (t.vc n c).acc = 0 ∧ (t.vc n c).rounds = 0)) ∧
     (∀ (b : BitVec 128) (pm : BitVec 16), s.flag F.PWR_SHUT_LATCH = false →
       (∃ t, exec (.trayPost b pm true) s = .next t ∧ t = s.finish (s.trayPost (leBytes 16 b.toNat) pm.toNat) ∧
         (b.toNat.testBit 64 = true → b.toNat.testBit 66 = true → t.rget .PWR_COOL = b.toNat / 2 ^ 16 % 2 ^ 48 ∧
           t.pow.coolAt = some s.cc ∧ t.pow.stale = false ∧ t.pow.evalAt = s.cc ∧ t.fget F.PWR_MEAS_PM = pm.toNat ∧
           t.pow.lowAt = (if b.toNat / 2 ^ 48 % 2 ^ 16 < 400 then some (s.pow.lowAt.getD s.cc) else none))) ∧
       (Quiet s → exec (.trayPost b pm false) s = .next (s.setMgmt { s.mgmt with discarded := s.mgmt.discarded + 1 })) ∧
       (b.toNat.testBit 64 = false ∨ b.toNat.testBit 66 = false → s.trayPost (leBytes 16 b.toNat) pm.toNat = s)) ∧
     (s.pow.stale = false → (s.pow.coolAt).getD 0 + 480000000 < s.cc → ∃ t, exec .coolStale s = .next t ∧
       t.pow = { s.pow with stale := true } ∧ t.mem = s.mem ∧ t.str = s.str) ∧
     (∀ pm : BitVec 16, s.flag F.PWR_SHUT_LATCH = false → s.pow.evalAt + 9600000 ≤ s.cc → ∃ t, exec (.powerCapEval pm) s = .next t ∧
       t.fget F.PWR_MEAS_PM = pm.toNat ∧ t.fget F.PWR_MEAS_PMAX = max pm.toNat (s.fget F.PWR_MEAS_PMAX) ∧ t.pow.evalAt = s.cc ∧
       t.fget F.PWR_GATE_GLAW = lawGate (s.fget F.PWR_CAPCFG_PSTAT) pm.toNat (s.fget F.PWR_GATE_GLAW) t.pow.pcap ∧ t.mem = s.mem ∧ t.str = s.str)) ∧
  (∀ (ps pm g0 : Nat) (cap : Int), g0 ≤ 15 →
     let ok (g : Nat) : Prop := ((ps : Int) * (16 - g0) + ((pm : Int) - ps) * (16 - g)) * 1000000 ≤ cap * (16 - g0)
     let g := lawGate ps pm g0 cap
     g ≤ 15 ∧ g0 ≤ g + 1 ∧ (g0 ≤ g → (ok g ∨ g = 15) ∧ ∀ g' < g, ¬ ok g') ∧ (g < g0 → ∃ g' < g0, ok g'))

/-! ### The management port and JTAG -/

/-- O54. The management commands (R432 to R435, R573): each answers as its table says and leaves memory, the cores and the stream alone; STATUS clears the latched
sources; a write with a bad PEC is discarded and counted; an address of 0 leaves a port's own; a transaction that is abandoned has no effect.
KEY_SET and KEY_CLEAR (R432, R429): with owner presence the key is set or removed and every session closes; without it nothing changes but the status and
the alert. -/
def Obligations.ManagementPortAnswers : Prop :=
  (∀ (s : State) (seq addr : BitVec 64) (p : BitVec 8) (ip4 : BitVec 32) (ip6 : BitVec 128), Quiet s → s.life.aon = true →
     let gives (c : Instr) (m : Mgmt) : Prop := exec c s = .next (s.setMgmt m)
     (∃ t, exec .status s = .next t ∧ t.mgmt.reply.length = 16 ∧ t.mgmt.alerts = 0 ∧ t = { s with mgmt := t.mgmt }) ∧
     (∃ t, exec .telem s = .next t ∧ t.mgmt.reply.length = 64 ∧ t.mgmt.reply.take 2 = leBytes 2 (s.fget F.PWR_MEAS_PM) ∧
       t.mgmt.status = ST.OK ∧ t = { s with mgmt := t.mgmt }) ∧
     gives .bbrInfo { s.mgmt with reply := leBytes 8 s.bbrOldest ++ leBytes 8 s.bbrNewest ++ leBytes 8 (s.rget .BBR_PENDING), status := ST.OK } ∧
     gives (.bbrSel seq true) { s.mgmt with bbrSel := seq.toNat, status := ST.OK } ∧
     gives (.bbrSel seq false) { s.mgmt with discarded := s.mgmt.discarded + 1 } ∧
     (s.bbrBusy s.mgmt.bbrSel 1 = false → gives .bbrEntry { s.mgmt with
       reply := (s.bbrRead s.mgmt.bbrSel).1, bbrSel := (s.mgmt.bbrSel + 1) % 2 ^ 64,
       status := if (s.bbrRead s.mgmt.bbrSel).2 then ST.OK else ST.ABSENT }) ∧
     gives .alertResponse { s.mgmt with reply := leBytes 1 (0x58 + s.life.straps) } ∧ exec .smbusTimeout s = .next s ∧
     (s.mgmtFull = true →
       gives (.regSel addr true) { s.mgmt with regSel := addr.toNat, status := ST.OK } ∧
       gives (.regSel addr false) { s.mgmt with discarded := s.mgmt.discarded + 1 } ∧
       (∃ t, exec .regVal s = .next t ∧ t.mgmt.reply = leBytes 8 (s.regRead s.mgmt.regSel).1 ++ leBytes 2 (s.regRead s.mgmt.regSel).2.1 ∧
         t.mgmt.status = (s.regRead s.mgmt.regSel).2.1) ∧
       (∃ t, exec (.ethAddr p ip4 ip6 true) s = .next t ∧ (p.toNat < 8 → t.mgmt.status = ST.OK ∧
         t.rget .ETH_IP4 p.toNat = (if ip4 = 0 then s.rget .ETH_IP4 p.toNat else ip4.toNat) ∧
         (ip6 ≠ 0 → t.rget .ETH_IP6L p.toNat + t.rget .ETH_IP6H p.toNat * 2 ^ 64 = ip6.toNat)) ∧
         t = { s with mgmt := t.mgmt, regs := t.regs, free := t.free }))) ∧
  (∀ (s : State) (key : BitVec 256), Quiet s → s.mgmtFull = true →
     (∃ t, exec (.keySet key true true) s = .next t ∧ t.mgmt.key = some (leBytes 32 key.toNat) ∧ t.mgmt.status = ST.OK ∧ t.sessions = [] ∧
       t = { s with mgmt := t.mgmt, regs := t.regs }) ∧
     (∃ t, exec (.keyClear true true) s = .next t ∧ t.mgmt.key = none ∧ t.mgmt.status = ST.OK ∧ t.sessions = [] ∧
       t = { s with mgmt := t.mgmt, regs := t.regs }) ∧
     (∃ t, exec (.keySet key false true) s = .next t ∧ t.mgmt.key = s.mgmt.key ∧ t.mgmt.status = ST.PRESENCE ∧ t = { s with mgmt := t.mgmt }) ∧
     (∃ t, exec (.keyClear false true) s = .next t ∧ t.mgmt.key = s.mgmt.key ∧ t.mgmt.status = ST.PRESENCE ∧ t = { s with mgmt := t.mgmt }))

/-- O55. The JTAG instructions (R574 to R576): each takes its code and shifts its register; the boundary cells are loaded by SAMPLE_PRELOAD, and by EXTEST only
while RESET_N is low; a device out of reset has no pin driven by a cell; nothing but the port's own state changes. -/
def Obligations.JtagReachesOnlyItsPins : Prop :=
  ∀ (s : State) (pins : BitVec 12) (shift : BitVec 16), Quiet s → s.life.aon = true →
    let takes (c : Instr) (ir : Nat) (P : State → Prop) : Prop := ∃ t, exec c s = .next t ∧ t.life.jtagIr = ir ∧ P t ∧
      (s.life.resetN = true → t.pinDrive = none) ∧
      t = { s with free := t.free, life := { s.life with jtagIr := ir, jtagCells := t.life.jtagCells, jtagOut := t.life.jtagOut } }
    let bypass (t : State) : Prop := t.life.jtagOut = 2 * shift.toNat % 2 ^ 16 ∧ t.life.jtagCells = s.life.jtagCells
    takes .idcode JT_IDCODE (fun t => t.life.jtagOut = 0x1A102A5F ∧ t.life.jtagCells = s.life.jtagCells) ∧
    takes (.bypass shift) JT_BYPASS bypass ∧
    takes (.highz shift) JT_HIGHZ (fun t => bypass t ∧ (s.life.resetN = false → t.pinDrive = some none)) ∧
    takes (.clamp shift) JT_CLAMP (fun t => bypass t ∧ (s.life.resetN = false → t.pinDrive = some (some s.life.jtagCells))) ∧
    takes (.samplePreload pins shift) JT_SAMPLE (fun t => t.life.jtagCells = shift.toNat ∧ t.life.jtagOut % 256 = pins.toNat % 256) ∧
    takes (.extest pins shift) JT_EXTEST (fun t => (s.life.resetN = true → bypass t) ∧
      (s.life.resetN = false → t.life.jtagCells = shift.toNat ∧ t.pinDrive = some (some shift.toNat) ∧ t.life.jtagOut % 256 = pins.toNat % 256)) ∧
    takes .jtagReset JT_IDCODE (fun t => t.pinDrive = none)

/-! ### Licences and the black box -/

/-- O56. LICENCE_INSTALL, LICENCE_LAPSE, SVCTIME_TICK (R526 to R529): a licence that fails a check changes nothing but the first-failure record; one that passes
is stored, and takes effect at the step boundary while the stream is RUNNING. A grant lapses once the service time has reached its NOT_AFTER; the
service time counts seconds, and its save is queued after every sixtieth. -/
def Obligations.LicencesAndServiceTime : Prop :=
  ∀ (s : State),
    (∀ (h : EcpHdr) (d : List Byte), s.hears h.qp = true → Takes s h OP.LICENCE_INSTALL GRP_LICENCE false false → let u := s.taken h
      (d.length = 160 → ∀ st cause, u.licRefusal d = some (st, cause) →
        exec (.licenceInstall h d) s = .next (s.finish ((u.errLIC st cause).answer h OP.LICENCE_INSTALL GRP_LICENCE [] [] (some (st, []))))) ∧
      (d.length = 160 → u.licRefusal d = none →
        ∃ t, exec (.licenceInstall h d) s = .next t ∧ t = s.finish ((u.licStore (licOf d)).answer h OP.LICENCE_INSTALL GRP_LICENCE [] []
            (if s.running = true then none else some (ST.OK, []))) ∧
          ((licOf d).kind = 0 → ∃ k < 16, (∀ g ∈ s.life.grants, g.1 ≠ k) ∧
            t.life.grants = s.life.grants ++ [(k, (licOf d).serial, (licOf d).features, (licOf d).notAfter)]) ∧
          ((licOf d).kind = 1 → (licOf d).target ∈ t.life.revoked ∧ ∀ g ∈ t.life.grants, g.2.1 ≠ (licOf d).target) ∧
          (s.running = true → t.flag F.LIC_STAT_PEND = true ∧ t.fget F.LIC_STAT_INFORCE = s.fget F.LIC_STAT_INFORCE)) ∧
      (d.length ≠ 160 →
        exec (.licenceInstall h d) s = .next (s.finish ((u.errLIC ST.DESC LC.FORMAT).answer h OP.LICENCE_INSTALL GRP_LICENCE [] [] (some (ST.DESC, [])))))) ∧
    (∀ k : Fin 16, s.awake = true → s.flag F.LIC_SLOTA_VALID 0 k = true → s.rget .LIC_SLOTB 0 k ≠ 0 → s.rget .LIC_SLOTB 0 k ≤ s.rget .LIC_SVCTIME →
      let serial := s.fget F.LIC_SLOTA_SERIAL 0 k
      ∃ t, exec (.licenceLapse k) s = .next t ∧ t = s.finish ((((s.dropGrant serial).raise .licLapse 0 0 0 serial).licEntry 2 4 serial
          (s.rget .LIC_SLOTB 0 k)).licenceChanged) ∧
        t.life.grants = s.life.grants.filter (fun g => decide (g.2.1 ≠ serial)) ∧
        ((∃ g ∈ s.life.grants, g.1 = k.val ∧ g.2.1 = serial) → t.flag F.LIC_SLOTA_VALID 0 k = false ∧ t.rget .LIC_SLOTB 0 k = 0) ∧
        (s.running = true → t.flag F.LIC_STAT_PEND = true ∧ t.fget F.LIC_STAT_INFORCE = s.fget F.LIC_STAT_INFORCE)) ∧
    (Quiet s → s.life.aon = true → ∃ t, exec .svctimeTick s = .next t ∧ t.rget .LIC_SVCTIME = (s.rget .LIC_SVCTIME + 1) % 2 ^ 64 ∧
      (s.life.svcSince < 59 → t.life.svcSince = s.life.svcSince + 1 ∧ t.bbr = s.bbr) ∧ (59 ≤ s.life.svcSince → t.life.svcSince = 0) ∧
      t.mem = s.mem ∧ t.str = s.str)

/-- O57. BBR_READ, BBR_ACK, BBR_PROGRAM, BBR_ERASE (R424, R543, R544, R549, R551): a read of 1 to 16 entries answers 64 bytes each once they are written, an
entry that is not held reading as all ones; only the pending sequence number is acknowledged; a copy that programs takes the place at the device's
write position, one that reads back wrong skips the sector, a device that does not respond is lost; a good erase frees one sector ahead. -/
def Obligations.BlackBoxReadsAndWrites : Prop :=
  (∀ (s : State) (h : EcpHdr) (first : BitVec 64) (count : BitVec 8) (seq : BitVec 64), s.hears h.qp = true → let u := s.taken h
    let args := [first.toNat, count.toNat]
    (Takes s h OP.BBR_READ GRP_BBR false false →
      (count.toNat = 0 ∨ 16 < count.toNat →
        exec (.bbrRead h first count) s = .next (s.finish (u.answer h OP.BBR_READ GRP_BBR args [] (some (ST.DESC, []))))) ∧
      (1 ≤ count.toNat → count.toNat ≤ 16 → u.bbrBusy first.toNat count.toNat = true →
        exec (.bbrRead h first count) s = .next (s.finish (u.answer h OP.BBR_READ GRP_BBR args [] none))) ∧
      (1 ≤ count.toNat → count.toNat ≤ 16 → u.bbrBusy first.toNat count.toNat = false →
        exec (.bbrRead h first count) s = .next (s.finish (u.answer h OP.BBR_READ GRP_BBR args [] (some (u.bbrReadBody first.toNat count.toNat)))))) ∧
    (Takes s h OP.BBR_ACK GRP_BBR false false →
      (seq.toNat ≠ u.rget .BBR_PENDING ∨ seq.toNat = 0 →
        exec (.bbrAck h seq) s = .next (s.finish (u.answer h OP.BBR_ACK GRP_BBR [] [] (some (ST.DESC, []))))) ∧
      (seq.toNat = u.rget .BBR_PENDING → seq.toNat ≠ 0 → exec (.bbrAck h seq) s = .next (s.finish
        (((u.rset .BBR_PENDING 0 0 0).bbrPut (u.bbrEntry BBR_ACK 1 0 (leBytes 8 seq.toNat))).answer h OP.BBR_ACK GRP_BBR [] [] (some (ST.OK, []))))))) ∧
  (∀ (s : State) (n : Nat), n < s.bbrOldest ∨ s.bbrNewest < n ∨ n = 0 → s.bbrRead n = (List.replicate 64 0xFF, false)) ∧
  (∀ (s : State) (dev : Bool) (n : Nat) (b : List Byte) (second : Bool), Quiet s → s.life.aon = true →
    (s.bbr.cur = some (n, b, second) → s.bbrTarget = some dev → (s.bbrDev dev).room = true → s.bbrOk dev = true →
      (∃ t, exec (.bbrProgram 0) s = .next t ∧ t.bbrDev dev = (s.bbrDev dev).place b ∧ t.bbrDev (!dev) = s.bbrDev (!dev) ∧
        (second = false → s.bbrOk (!dev) = true → t.bbr.cur = some (n, b, true))) ∧
      (∃ t, exec (.bbrProgram 1) s = .next t ∧ t.bbrDev dev = (s.bbrDev dev).skip ∧ t.bbrDev (!dev) = s.bbrDev (!dev) ∧
        t.bbr.cur = s.bbr.cur) ∧
      (∃ t, exec (.bbrProgram 2) s = .next t ∧ t.bbrOk dev = false ∧ t.bbrDev true = s.bbrDev true ∧ t.bbrDev false = s.bbrDev false)) ∧
    (s.bbrOk dev = true → (s.bbrDev dev).ahead < 2 → (s.bbrDev dev).bad.length + 4 < SECTORS → ∀ good,
      ∃ t, exec (.bbrErase dev good) s = .next t ∧ t.bbrDev dev = (s.bbrDev dev).erase good ∧ t.bbrDev (!dev) = s.bbrDev (!dev) ∧
        (good = true → (t.bbrDev dev).ahead = (s.bbrDev dev).ahead + 1) ∧ t = { s with bbr := t.bbr }))

/-! ### The Cicada pair -/

/-- O58. PAIR_MODE and PAIR_SEEK_TIMEOUT (R440 to R442): one that is refused changes nothing; one that changes ROLE or MODE while the stream is RUNNING waits for
the step boundary; any other takes effect at once, and is complete at once where its MODE is OFF. A device still SEEKING 100 ms later answers
ST_PAIR_NOPEER.
STEP_HASH and INPUT_RECORD_WRITE (R455 to R460): the hash that is due is computed and kept, and it is due no more; with the peer's hash of the step
at hand the two are compared and counted, and without it nothing but the pair engine moves; a record for the next step goes into the
mailbox, its condition lines into STR_HOSTCOND and its step into CIC_LASTIN, and it leaves the list. -/
def Obligations.PairModeAndStepRecords : Prop :=
  (∀ (s : State) (h : EcpHdr) (mode role path flags relay : BitVec 8) (uid jbuf : BitVec 64) (jlen : BitVec 16),
     (s.hears h.qp = true → Takes s h OP.PAIR_MODE GRP_PAIR false s.cic.pending.isSome → let u := s.taken h
       let c : Instr := .pairMode h mode role path flags relay uid jbuf jlen
       let b : PairBody := { mode := mode.toNat, role := role.toNat, path := path.toNat, divhalt := flags.toNat % 2 = 1, relay := relay.toNat,
                             uid := uid.toNat, jbuf := jbuf.toNat, jlen := jlen.toNat }
       let now := ¬ (u.dropPair.running = true ∧ (b.mode ≠ u.dropPair.cmode ∨ b.role ≠ u.dropPair.fget F.CIC_STAT_ROLE))
       (∀ st, u.pairRefusal b flags.toNat = some st →
         exec c s = .next (s.finish (u.answer h OP.PAIR_MODE GRP_PAIR [] [] (some (st, []))))) ∧
       (u.pairRefusal b flags.toNat = none →
         (¬ now → ∃ v : State, exec c s = .next (s.finish (v.answer h OP.PAIR_MODE GRP_PAIR [] [] none)) ∧ v.cic.pending = some b ∧
           v.flag F.CIC_STAT_PENDING = true ∧ v.fget F.CIC_STAT_MODE = u.dropPair.fget F.CIC_STAT_MODE) ∧
         (now → ∃ t, exec c s = .next t ∧ t = s.finish ((u.dropPair.applyPair b).answer h OP.PAIR_MODE GRP_PAIR [] []
             (if b.mode = 0 then some (ST.OK, (u.dropPair.applyPair b).pairBody) else none)) ∧
           t.cmode = b.mode ∧ t.fget F.CIC_STAT_ROLE = b.role ∧ t.fget F.CIC_STAT_PATH = b.path ∧ t.rget .CIC_PEERUID = b.uid ∧
           t.cic.pending = none ∧ (b.mode = 0 → t.pst = PS.OFF) ∧
           (b.mode ≠ 0 → t.pst = PS.SEEKING ∧ t.cic.seekAt = s.cc ∧ ∃ e ∈ t.cmds, e.op = OP.PAIR_MODE)))) ∧
     (s.powered = true → s.doing OP.PAIR_MODE = true → s.cic.pending = none → s.cic.seekAt + 96000000 ≤ s.cc →
       ∃ t, exec .pairSeekTimeout s = .next t ∧ t = s.finish (s.complete OP.PAIR_MODE ST.PAIR_NOPEER s.pairBody) ∧ t.pst = s.pst ∧ t.cic = s.cic ∧
         t.str = s.str ∧ t.mem = s.mem ∧ ∀ c, s.cmdOf OP.PAIR_MODE = some c → t.cmds = s.cmds.filter (fun d => decide (d ≠ c)) ∧
           (Quiet s → c.qp < NO_QP → (t.qp c.qp).sendq = (s.qp c.qp).sendq ++
             [{ kind := 3, op := c.op, tag := c.tag, status := ST.PAIR_NOPEER, session := c.session, body := s.pairBody }]))) ∧
  (∀ (s : State), s.powered = true →
     (∀ a n rest, s.cic.due = (a, n) :: rest → a ≤ s.cc →
       let x := s.stepHash n
       let pn := if s.standby = true then (s.rget .CIC_APPLIED + 1 + n) % 2 ^ 64 else n
       ∃ t, exec .stepHash s = .next t ∧ t = s.finish (s.stepHashDone n) ∧ t.cic.due = rest ∧
         ((∀ h ∈ s.cic.peer, h.1 ≠ pn) → (pn, x.1, x.2, false) ∈ t.cic.own ∧ t.str = s.str ∧ t.mem = s.mem) ∧
         (∀ b, (s.cic.peer.find? fun h => h.1 = pn) = some b → (∀ h ∈ s.cic.own, h.1 ≠ pn) → (pn, x.1, x.2, true) ∈ t.cic.own ∧
           (x.1 = b.2.1 → t.rget .CIC_HASHSTEP = pn % 2 ^ 64 ∧ t.fget F.CIC_CMPCNT_MATCH = F.CIC_CMPCNT_MATCH.up (s.fget F.CIC_CMPCNT_MATCH)) ∧
           (x.1 ≠ b.2.1 → t.fget F.CIC_CMPCNT_DIVERGE = F.CIC_CMPCNT_DIVERGE.up (s.fget F.CIC_CMPCNT_DIVERGE)))) ∧
     (∀ r, s.dueRecord = some r → ∃ t, exec .inputRecordWrite s = .next t ∧ t = s.finish (s.writeRecordIn r) ∧
       s.replayStandby = true ∧ s.cic.recs.head? = some r ∧ r.step = (s.rget .CIC_APPLIED + 1 + s.cic.wrote) % 2 ^ 64 ∧
       (s.flag F.CIC_STAT_PACED = false → t.rget .STR_HOSTCOND = r.cond % 2 ^ 16 ∧ t.rget .CIC_LASTIN = r.step ∧ t.cic.recs = s.cic.recs.drop 1 ∧
         t.cic.wrote = s.cic.wrote + 1 ∧ t.str.startHeld = false)))

/-- O59. HEARTBEAT, HEARTBEAT_SEND, HEARTBEAT_MISS (R444, R451, R452): a heartbeat that passes the checks links a SEEKING device and restarts the timer; one that
does not pass breaks a SEEKING or LINKED pair; from PEER_LOST the same peer's return breaks it. Four misses are counted, and the fifth time
without a heartbeat loses the peer. -/
def Obligations.HeartbeatsLinkLoseAndBreak : Prop :=
  ∀ (s : State) (h : FrameHdr) (x : HeartbeatIn),
    (s.cicHears = true → let u := (s.bump F.CIC_FRMCNT_RX 0 0 1).frameAck h
      ∃ t, exec (.heartbeat h x) s = .next t ∧
        (u.pst = PS.SEEKING → u.heartbeatOk x = true → t.pst = PS.LINKED ∧ t.cic.hbAt = u.cc ∧ t.cic.misses = 0 ∧
          t.rget .CIC_PEERSTEP = h.step.toNat) ∧
        (u.pst = PS.LINKED → u.heartbeatOk x = true → x.pstate.toNat ≠ PS.BROKEN → t.pst = PS.LINKED ∧ t.cic.hbAt = u.cc ∧ t.cic.misses = 0) ∧
        (u.pst = PS.SEEKING ∨ u.pst = PS.LINKED → u.heartbeatOk x = false → t.pst = PS.BROKEN ∧ t.fget F.CIC_STAT_BCAUSE = BC.CONFIG) ∧
        (u.pst = PS.PEER_LOST → x.uid.toNat = u.rget .CIC_PEERUID → t.pst = PS.BROKEN ∧ t.fget F.CIC_STAT_BCAUSE = BC.RETURN)) ∧
    (s.life.aon = true → s.powered = true → s.pst ≠ PS.OFF → s.cic.hbSent + 7200 ≤ s.cc →
      ∃ t, exec .heartbeatSend s = .next t ∧ t.cic.hbSent = s.cc ∧ t.pst = s.pst ∧ t.str = s.str ∧ t.mem = s.mem ∧ t.cic.txSeq = s.cic.txSeq) ∧
    (s.powered = true → s.pst = PS.LINKED → s.cic.hbAt + missAt s.cic.misses ≤ s.cc →
      ∃ t, exec .heartbeatMiss s = .next t ∧
        (s.cic.misses < 4 → t.pst = PS.LINKED ∧ t.cic.misses = s.cic.misses + 1 ∧
          t.fget F.CIC_HBCNT_MISSED = F.CIC_HBCNT_MISSED.up (s.fget F.CIC_HBCNT_MISSED)) ∧
        (4 ≤ s.cic.misses → t.pst = PS.PEER_LOST ∧ t.fget F.CIC_STAT_LCAUSE = 1)) ∧
    (missAt 0 = 8160 ∧ missAt 1 = 15840 ∧ missAt 2 = 23520 ∧ missAt 3 = 31200 ∧ missAt 4 = 38400)

/-- O60. The frames with a sequence number (R445 to R449): NOTICE, HASH, INPUT, INEND, JLINE, JREG, JEND, SYNC. One in sequence is acted on and moves the expected
number on, and so is the first one of a path (log entry 164); on the direct path one out of sequence has no effect but its acknowledgement and its count; a bad frame is counted, and answered with a
NAK on the direct path. -/
def Obligations.PairFramesGoInSequence : Prop :=
  ∀ (s : State) (h : FrameHdr) (cause : BitVec 8) (hash frames free defer reserve live : BitVec 64) (pois base : Bool)
    (entries : List (Fin 1024 × BitVec 512)) (count cond : BitVec 16) (rs : List (BitVec 64 × BitVec 512 × BitVec 8)) (core : Fin 1024),
    s.cicHears = true →
    let u := (s.bump F.CIC_FRMCNT_RX 0 0 1).frameAck h
    let w := u.setCic { u.cic with rxSeq := some ((h.seq.toNat + 1) % 2 ^ 32), nak := false }
    let all : List Instr := [.notice h cause, .hash h hash pois, .input h entries, .inend h count cond, .jline h rs,
      .jreg h core free defer reserve live, .jend h frames base, .sync h rs]
    (u.cic.rxSeq ≠ none → u.cic.rxSeq ≠ some h.seq.toNat → u.flag F.CIC_STAT_PATH = false → ∀ c ∈ all, exec c s = .next (s.finish u)) ∧
    (u.cic.rxSeq ≠ none → u.cic.rxSeq ≠ some h.seq.toNat → u.flag F.CIC_STAT_PATH = true → u.pst = PS.LINKED → ∀ c ∈ all, exec c s = .next (s.finish (u.pairBreaks BC.GAP))) ∧
    (u.cic.rxSeq = none ∨ u.cic.rxSeq = some h.seq.toNat →
      (∀ c ∈ all, c ≠ .hash h hash pois → ∃ t, exec c s = .next t ∧ t.cic.rxSeq = some ((h.seq.toNat + 1) % 2 ^ 32) ∧ t.cic.nak = false) ∧
      (∃ t, exec (.notice h cause) s = .next t ∧ t = s.finish (if w.pst = PS.LINKED then w.peerLost (cause.toNat + 1) else w) ∧
        (w.pst = PS.LINKED → t.pst = PS.PEER_LOST ∧ t.fget F.CIC_STAT_LCAUSE = (cause.toNat + 1) % 16 ∧ t.cic.stage = {})) ∧
      (w.cmode ≠ 1 → exec (.hash h hash pois) s = .next (s.finish w)) ∧
      (w.cmode = 1 → ∃ t, exec (.hash h hash pois) s = .next t ∧ t = s.finish ((w.setCic { w.cic with
          peer := (w.cic.peer.filter fun p => p.1 ≠ h.step.toNat) ++ [(h.step.toNat, hash.toNat, pois)] }).compareAndHalt h.step.toNat) ∧
        ((∀ o ∈ w.cic.own, o.1 ≠ h.step.toNat) → (h.step.toNat, hash.toNat, pois) ∈ t.cic.peer ∧
          t.cic.rxSeq = some ((h.seq.toNat + 1) % 2 ^ 32)) ∧
        (∀ x, (w.cic.own.find? fun o => o.1 = h.step.toNat && !o.2.2.2) = some x →
          (x.2.1 = hash.toNat → t.rget .CIC_HASHSTEP = h.step.toNat ∧ t.fget F.CIC_CMPCNT_MATCH = F.CIC_CMPCNT_MATCH.up (w.fget F.CIC_CMPCNT_MATCH)) ∧
          (x.2.1 ≠ hash.toNat → t.fget F.CIC_CMPCNT_DIVERGE = F.CIC_CMPCNT_DIVERGE.up (w.fget F.CIC_CMPCNT_DIVERGE)))) ∧
      (w.pairFlows = true → w.standby = true → w.cmode = 1 → (w.cic.partStep = none ∨ w.cic.partStep = some h.step.toNat) →
        (∃ t, exec (.input h entries) s = .next t ∧ t.cic = { w.cic with
          part := w.cic.part ++ (entries.take 3).map (fun e => (e.1.val, leBytes 64 e.2.toNat)), partStep := some h.step.toNat } ∧
          t.str = s.str ∧ t.mem = s.mem) ∧
        (w.cic.part.length = count.toNat → w.cic.recs.length < 64 → ∃ t, exec (.inend h count cond) s = .next t ∧
          t = s.finish (w.setCic { w.cic with
            part := [], partStep := none,
            recs := w.cic.recs ++ [{ step := h.step.toNat, entries := w.cic.part, cond := cond.toNat }] }).startRecord ∧
          t.cic.recs = w.cic.recs ++ [{ step := h.step.toNat, entries := w.cic.part, cond := cond.toNat }] ∧ t.cic.part = [] ∧
          t.cic.partStep = none ∧ t.str = s.str ∧ t.mem = s.mem)) ∧
      (w.pairFlows = true → w.standby = true →
        let room := w.cic.stage.bytes + 256 ≤ w.fget F.CIC_JBUF_LEN * 2 ^ 20
        let stages (c : Instr) (g : Stage) : Prop := ∃ t, exec c s = .next t ∧
          (room → t.cic = { w.cic with stage := { g with bytes := w.cic.stage.bytes + 256 } } ∧ t.pst = w.pst ∧ t.str = s.str) ∧
          (¬ room → t.pst = PS.BROKEN ∧ t.fget F.CIC_STAT_BCAUSE = BC.JBUF)
        let g := w.cic.stage
        stages (.jline h rs) { g with lines := g.lines ++ (rs.take 3).map lineRecord, frames := g.frames + 1 } ∧
        stages (.sync h rs) { g with lines := g.lines ++ (rs.take 3).map lineRecord } ∧
        stages (.jreg h core free defer reserve live) { g with
          regs := g.regs ++ [(core.val, [free.toNat, defer.toNat, reserve.toNat, live.toNat])], frames := g.frames + 1 } ∧
        (g.frames = frames.toNat → ∃ t, exec (.jend h frames base) s = .next t ∧ t = s.finish (w.applyStage h.step.toNat base) ∧
          t.rget .CIC_APPLIED = h.step.toNat ∧ t.rget .STR_OUTSTEP = h.step.toNat ∧ t.cic.stage = {} ∧
          (base = true → t.flag F.CIC_STAT_SYNCED = true) ∧
          (∀ n a b c d, n < 1024 → g.regs = [(n, [a, b, c, d])] → t.rget .KVP_FREE n = a % 2 ^ 64 ∧ t.rget .KVP_LIVE n = d % 2 ^ 64)) ∧
        (g.frames ≠ frames.toNat → ∃ t, exec (.jend h frames base) s = .next t ∧ t.cic = { w.cic with stage := {} } ∧
          t.rget .CIC_APPLIED = s.rget .CIC_APPLIED ∧ t.mem = s.mem ∧ t.str = s.str))) ∧
    (∃ t, exec .badFrame s = .next t ∧ t.cic = { s.cic with nak := s.cic.nak || !s.flag F.CIC_STAT_PATH } ∧
      t.fget F.CIC_CRCCNT_BAD = F.CIC_CRCCNT_BAD.up (s.fget F.CIC_CRCCNT_BAD) ∧ t.mem = s.mem ∧ t.str = s.str)
end

