-- ==== Sys2Proof/WellFormed.lean ====
section
/-!
DEFINITION. Well-formed commands: what the rules let a sender, the wire or the world around the block put into one. The types of `Instr` hold
most bounds already; this is the rest. `exec` is total and does not ask for it.
-/
namespace Sys2Proof

/-- R149, R180: a mismatch names a core, one of the units of COR_RESLOG1, one of the three checks and a part of the result. -/
def ResHit.wf (x : ResHit) : Bool :=
  decide (x.core < 1024) && decide (1 ≤ x.unit) && decide (x.unit ≤ 7) && decide (1 ≤ x.check) && decide (x.check ≤ 3) && decide (x.part ≤ 3)

/-- R334, R362: a mismatch in a side stack names its channel, a Scarab unit or the channel's adder (16), and a check. -/
def SideHit.wf (x : SideHit) : Bool :=
  decide (x.stk < 8) && decide (x.ch < 32) && decide (x.unit ≤ 16) && decide (1 ≤ x.check) && decide (x.check ≤ 3)

/-- R149, R200: an upset changes a symbol of a stored word by an error that is not 0: a word of a vault has 35 symbols, one of a side stack or
of scratch no more. -/
def upsetWf (u : Nat × Nat × Nat) : Bool := decide (u.2.1 < 36) && decide (0 < u.2.2) && decide (u.2.2 < 256)

/-- R81: an upset of a loop buffer names a core and one of its code words. -/
def lbupWf (u : Nat × Nat × Nat × Nat) : Bool :=
  decide (u.1 < 1024) && decide (u.2.2.1 < 36) && decide (0 < u.2.2.2) && decide (u.2.2.2 < 256)

def BundleEnv.wf (x : BundleEnv) : Bool :=
  x.hits.all ResHit.wf && x.ctrlPar.all (fun n => decide (n < 1024)) && x.upsets.all upsetWf && x.lbups.all lbupWf && x.side.all SideHit.wf

/-- R483, R486: readings of the 132 physical clusters and the 8 stacks, the four regulator currents of a cluster, the power of a stack. -/
def ThermIn.wf (x : ThermIn) : Bool :=
  x.snsr.all (fun p => decide (p.1 < 140)) && x.amps.all (fun p => decide (p.1 < 132) && decide (p.2.length = 4)) &&
    x.watts.all (fun p => decide (p.1 < 8))

/-- R472: the units of EV_RAIL, and the currents of the two halves. -/
def RailIn.wf (x : RailIn) : Bool := x.volts.all (fun p => decide (p.1 < 16)) && decide (x.amps.length ≤ 2)

/-- R506, R508: an engine as BST_KARLOG names it. -/
def KarFail.wf (x : KarFail) : Bool :=
  (decide (x.unit < 66) || (decide (0x80 ≤ x.unit) && decide (x.unit < 0x88))) && decide (x.sub < 32) && decide (1 ≤ x.engine) && decide (x.engine ≤ 9)

/-- The command is one that its rules allow. -/
def Instr.wf : Instr → Bool
  | .bundle x => x.wf
  | .stallRelease src half _ => decide (src < 7) && decide (half < 2)
  | .mailboxWrite _ off d => decide (d ≠ []) && decide (off.val + d.length ≤ 64)
  | .access _ _ hits => hits.all SideHit.wf
  | .refwin _ _ hits => hits.all SideHit.wf
  | .svc _ _ hits => hits.all SideHit.wf
  | .redopen _ _ hits => hits.all SideHit.wf
  | .redclose _ _ hits => hits.all SideHit.wf
  | .lease _ _ hits => hits.all SideHit.wf
  | .bcast _ _ hits => hits.all SideHit.wf
  | .rdmaWrite _ _ _ _ d => decide (d.length < 2 ^ 31)
  | .regWrite _ _ vs => decide (vs.length ≤ 255)
  | .licenceInstall _ d => decide (d ≠ []) && decide (d.length ≤ 1024)
  | .input _ es => decide (es ≠ []) && decide (es.length ≤ 3)
  | .jline _ rs => decide (rs ≠ []) && decide (rs.length ≤ 3)
  | .sync _ rs => decide (rs ≠ []) && decide (rs.length ≤ 3)
  | .railSample x => x.wf
  | .thermalEval x => x.wf
  | .phaseTimeout x => x.kar.all KarFail.wf
  | .phaseDone x => x.kar.all KarFail.wf
  | .moltDone x => x.kar.all KarFail.wf
  | .halfResetDone x => x.kar.all KarFail.wf
  | .freezeBegin | .freezeLift | .gatingWindow | .stallTimeout | .debugStep _ | .debugRefreeze | .streamLoad _ _ | .streamStart _ _ | .startCode
  | .streamHalt _ _ | .streamResume _ | .mailboxPresent _ | .arrRowmapWrite _ _ | .refreshInterval _ | .chmapSet _ _ _ _ | .retrainDone _
  | .kvRefill _ _ | .attentionCall _ _ | .nop _ _ _ | .copy _ _ _ | .gather _ _ _ | .scatter _ _ _ | .pageAppend _ _ _ | .pageCow _ _ _
  | .pageShare _ _ _ | .pageFree _ _ _ | .treeWalk _ _ _ | .topkRoute _ _ _ | .hostWindow _ _ _ | .pageUnitTake _ | .descriptorComplete _ _
  | .wvlDisable _ _ | .wvlEnable _ _ | .wvlClear _ _ | .reductionDeadline _ _ | .leaseWindowEnd _ _ | .cacheLaneAccess _ _ | .sideReservedSlot _ _
  | .scbCtlWrite _ _ | .flitLaunch _ _ | .dataFlit _ _ _ | .idleFlit _ _ _ | .widthchkFlit _ _ _ | .lineDue _ _ | .replayStallPoint _ _
  | .lateLaunch _ _ | .replayTimeout _ _ | .stallLaneFrame _ _ _ | .linkTrainDone _ _ _ _ _ | .linkTrainTimeout _ | .fastRetrainDone _
  | .itlRetrain _ | .itlFence _ | .ethLinkChange _ _ | .pfcFrame _ _ _ | .arp _ _ _ | .cmReq _ _ | .cmDreq _ | .rdmaRead _ _ _ _ _ | .qpError _
  | .hostLineTimeout | .sessionOpen _ | .sessionProof _ _ | .sessionClose _ | .eventCfg _ _ | .nonceLapse _ | .authlockExpire _ | .regRead _ _ _
  | .registerWrite _ _ | .errorRecordClear _ | .counterClear _ _ | .snsClear _ _ | .memRead _ _ _ | .moltHalf _ _ _ | .lbistRun _ _ _
  | .licenceLapse _ | .svctimeTick | .bbrRead _ _ _ | .bbrAck _ _ | .bbrProgram _ | .bbrErase _ _ | .pairMode _ _ _ _ _ _ _ _ _ | .pairSeekTimeout
  | .heartbeatSend | .heartbeat _ _ | .heartbeatMiss | .notice _ _ | .hash _ _ _ | .stepHash | .inend _ _ _ | .inputRecordWrite
  | .jreg _ _ _ _ _ _ | .jend _ _ _ | .powerFail _ _ _ | .regulatorFail _ _ _ | .droop _ _ _ | .chrysalisEnter _ | .chrysalisExit _
  | .chrysalisPhaseEnd _ | .trayPost _ _ _ | .coolStale | .powerCapEval _ | .aonRemoved | .bringup _ | .coldReset | .warmReset _ | .warmResetPin
  | .halfReset _ _ | .pllUnlock _ | .status | .telem | .keySet _ _ _ | .keyClear _ _ | .bbrInfo | .bbrSel _ _ | .bbrEntry | .regSel _ _ | .regVal
  | .ethAddr _ _ _ _ | .smbusTimeout | .extest _ _ | .idcode | .samplePreload _ _ | .highz _ | .clamp _ | .bypass _ | .jtagReset | .aonInRange _
  | .alertResponse | .laneLockLost _ _ _ | .framingLost _ | .badFrame | .malformedMessage _ _ | .invalidRequest _ | .discardedFrame _ _ | .cmRtu _
  | .roceAck _ _ _ | .localAckTimeout _ | .ethCtlWrite _ _ | .lbistDone _ | .warmResetDone => true

end Sys2Proof
end

