-- ==== Sys2Proof/Tests/Slice0.lean ====
section
/-!
SUPPORT. Tests. `test_…` compares a function with a worked example, a table or a formula of the spec; `wit_…` shows a concrete state and operands
that meet the premises of an obligation, clause by clause; `wf_…` shows that the check of well-formedness refuses.
-/
set_option Elab.async false

namespace Sys2Proof.Tests
open Sys2Proof Sys2Proof.Machine

/-! ### Small states -/

/-- READY, with nothing loaded. -/
def tReady : State := State.reset.fset F.BST_BRINGUP_PHASE 0 0 0xA
def tIn (x : Stream) : State := tReady.setStr x
def tRun : State := tIn { st := .running }
/-- Queue pair 0 is connected and holds session 7. -/
def withQp (s : State) : State :=
  ((s.fset F.ECP_QPSTAT_STATE 0 0 2).fset F.ECP_QPSTAT_SESS 0 0 1).fset F.ECP_SESSION_SESSION 0 0 7
def tQp : State := withQp tReady
def tHdr : EcpHdr := { qp := 0, session := 7, tag := 1 }
def tRunQp : State := withQp tRun

/-! ### Well-formedness refuses -/

theorem wf_rejects_bundle : (Instr.bundle { hits := [{ core := 1024, unit := 1, check := 1, lane := 0, row := 0, part := 0 }] }).wf = false := by decide
theorem wf_rejects_ctrlPar : (Instr.bundle { ctrlPar := [1024] }).wf = false := by decide
theorem wf_rejects_upset : (Instr.bundle { upsets := [(0, 36, 1)] }).wf = false := by decide
theorem wf_rejects_null_upset : (Instr.bundle { upsets := [(0, 3, 0)] }).wf = false := by decide
theorem wf_rejects_lbup : (Instr.bundle { lbups := [(0, 0, 3, 256)] }).wf = false := by decide
theorem wf_rejects_side : (Instr.bundle { side := [{ stk := 0, ch := 0, unit := 17, lane := 0, check := 1 }] }).wf = false := by decide
theorem wf_rejects_release : (Instr.stallRelease 7 0 0).wf = false := by decide
theorem wf_rejects_mailbox : (Instr.mailboxWrite 0 60 [1, 2, 3, 4, 5, 6, 7, 8]).wf = false := by decide
theorem wf_rejects_access : (Instr.access 0 0 [{ stk := 8, ch := 0, unit := 0, lane := 0, check := 1 }]).wf = false := by decide
theorem wf_rejects_licence : (Instr.licenceInstall tHdr []).wf = false := by decide
theorem wf_rejects_input : (Instr.input { seq := 0, ackv := false, nak := false, ack := 0, step := 0 } []).wf = false := by decide
theorem wf_rejects_jline : (Instr.jline { seq := 0, ackv := false, nak := false, ack := 0, step := 0 } []).wf = false := by decide
theorem wf_rejects_sync : (Instr.sync { seq := 0, ackv := false, nak := false, ack := 0, step := 0 } []).wf = false := by decide
theorem wf_rejects_rail : (Instr.railSample { volts := [(16, 0)] }).wf = false := by decide
theorem wf_rejects_therm : (Instr.thermalEval { snsr := [(140, 0, 0)] }).wf = false := by decide
theorem wf_rejects_regWrite : (Instr.regWrite tHdr 0 (List.replicate 256 0)).wf = false := by decide +kernel
theorem wf_rejects_kar : (Instr.phaseDone { kar := [{ half := 0, unit := 66, sub := 0, engine := 1, siglo := 0 }] }).wf = false := by decide
theorem wf_accepts_bundle : (Instr.bundle {}).wf = true := by decide

/-! ### Worked examples and tables of the spec -/

/-- Chapter 00: the page of room 212. -/
theorem test_place_of_page : placeOf 0x102D400000 = .vault 517 2 0x1400000 := by decide
theorem test_place_edges : placeOf 0x1FFFFFFFFF = .vault 1023 3 0x1FFFFFF ∧ placeOf 0x2000000000 = .nowhere ∧
    placeOf 0x407FFFFFFF = .scratch 1023 0x1FFFFF ∧ placeOf 0x17FFFFFFFFF = .side 7 31 0x7FFFFFFF ∧ placeOf 0x18000000000 = .nowhere ∧ placeOf 0x7F0160000000 = .nowhere := by decide
/-- Chapter 02, R98: u = 52 gives r = 84; chapter 05: u = 194 gives r = 228. -/
theorem test_lift : liftCycle 52 = 84 ∧ liftCycle 194 = 228 ∧ liftCycle 0 = 24 := by decide
/-- Chapter 04: the deskew delays before and after row 17 is taken out. -/
theorem test_deskew : deskewOf [] 0 = 65 ∧ deskewOf [] 63 = 2 ∧ deskewOf [17] 0 = 64 ∧ deskewOf [17] 63 = 1 ∧
    lastRow [] = 63 ∧ lastRow [17] = 64 := by decide
/-- R370 and chapter 10's example: module 6 sits at column 4 on LINK0. -/
theorem test_modules : (List.range 16).map moduleCol = [0, 0, 1, 2, 2, 3, 4, 4, 5, 6, 6, 7, 8, 8, 9, 10] ∧ modulePort 6 = 13 ∧ modulePort 7 = 14 := by
  decide
/-- Chapter 13: the law's results as the pump slows. -/
theorem test_gating_law : lawGate 400 1030 0 984400000 = 2 ∧ lawGate 400 951 2 765600000 = 7 ∧ lawGate 400 754 7 382800000 = 15 ∧
    lawGate 400 500 15 1750000000 = 14 := by decide
/-- R401. -/
theorem test_link_class : linkClassOf 32 = 0 ∧ linkClassOf 31 = 1 ∧ linkClassOf 28 = 2 ∧ linkClassOf 2 = 15 ∧ linkClassOf 1 = 16 := by decide
/-- Chapter 08: the slots of the reduction example fall in the SCNT values of its table (R309). -/
theorem test_slots : firstSlot 480000 = 1000000 ∧ firstSlot 480016 = 1000034 ∧ firstSlot 480030 ≤ 1000064 ∧ 1000064 < firstSlot 480031 := by decide
/-- Chapter 03's example: p1 enters exactly, p2 to p5 are rounded each on its own; the sum is 72 × 2^37 + 1 and four products lost precision. -/
theorem test_array_products : [(Machine.Prod.mk 72 0 3), Machine.Prod.mk 15 (-41) 3, Machine.Prod.mk 3 (-40) 3, Machine.Prod.mk 1 (-39) 3, Machine.Prod.mk 1 (-39) 3].foldl
      (fun x p => let y := x.1.enter p; (y.1, x.2 + y.2.toNat)) (({ w := 3 } : Acc), 0) = ({ a := 72 * 2 ^ 37 + 1, w := 3 }, 4) := by decide +kernel
/-- The same example: the codes of its operands, and 72 in FP32. -/
theorem test_formats : Fmt.e4m3.encode true (.fin false 3 (-1)) = 0x3C ∧ Fmt.e2m1.encode true (.fin false 6 0) = 7 ∧
    Fmt.fp32.encode false (.fin false (72 * 2 ^ 37 + 1) (-37)) = 0x42900000 := by decide +kernel
/-- FIPS 180-4, one block: the digest of "abc". -/
theorem test_sha256 : leNat (sha256 [0x61, 0x62, 0x63]).reverse = 0xba7816bf8f01cfea414140de5dae2223b00361a396177a9cb410ff61f20015ad := by
  decide +kernel
/-- R213: a band rises at once and falls 2 °C below its bound. -/
theorem test_band : bandNext 0 85000001 = 1 ∧ bandNext 1 83000001 = 1 ∧ bandNext 1 83000000 = 0 := by decide

/-! ### Premises are met: queue, memory, registers -/

theorem wit_FrontCommandRuns : ({ State.reset with pending := [.freezeBegin] } : State).pending = .freezeBegin :: [] := rfl
theorem wit_EmptyQueueTicks : State.reset.pending = [] ∧ State.reset.running = false ∧ State.reset.hq = [] ∧ State.reset.mesh = [] :=
  ⟨rfl, by decide, rfl, rfl⟩
theorem wit_NoEventWaitsAfterAStep : Quiet State.reset ∧ ∃ t, step State.reset = .next t := ⟨by unfold Quiet; decide +kernel, _, rfl⟩
theorem wit_MemoryReadsBackWhatIsStored : (0 < [(1 : Byte)].length) ∧ (4 < 5 ∨ 5 + [(1 : Byte)].length ≤ 4) ∧
    Memory.wf (tReady.putBytes 5 [1]).mem = true ∧
    ∀ a, smGet 0 (tReady.putBytes 5 [1]).mem a = smGet 0 (tReady.putBytes 5 [1]).mem a := by
  refine ⟨by decide, by decide, by decide +kernel, fun _ => rfl⟩
theorem wit_RegionsAreLaidOut : (tReady.fset (F.SSK_CHMAP_STATE 0) 4 0 CH.ONLINE).sskState 4 0 = CH.ONLINE ∧
    (0x5FFFFFFF : Nat) < 0x60000000 ∧ (0x2000000000 ≤ (0x3FFFFFFFFF : Nat)) := by decide +kernel
theorem wit_EmptyRegisterOffsetsAreAbsent : regAt 0x7F0000FFFFF8 = .nothing ∧ tReady.flag F.SYS_ERRSTAT_VALID = false ∧
    (tReady.fset F.SYS_ERRSTAT_VALID 0 0 1).flag F.SYS_ERRSTAT_VALID = true ∧ (tReady.fset F.SYS_ERRSTAT_VALID 0 0 1).errNow = [] := by
  decide +kernel
def tLatch : State := tQp.fset F.PWR_SHUT_LATCH 0 0 1
theorem wit_LatchRefusesResetCommands : tLatch.hearsReset tHdr.qp = true ∧ tLatch.flag F.PWR_SHUT_LATCH = true ∧
    Takes tLatch tHdr OP.WARM_RESET GRP_REPAIR false true ∧ Takes tLatch tHdr OP.MOLT_HALF GRP_REPAIR false false := by
  unfold Takes; decide +kernel

/-! ### Premises are met: the stream -/

def atStall (s : State) (cc : Nat) (g : Stall) : State := { s with cc := cc, stall := g }

def tFrzDue : State := atStall tRun 24 { reqs := [{ src := 3, half := 0, unit := 5, raised := 0 }] }
theorem wit_FreezeBeginHoldsTheStream : Quiet tFrzDue ∧ tFrzDue.life.powerFailed = false ∧ tFrzDue.str.st = .running ∧
    tFrzDue.str.starting = false ∧ tFrzDue.stall.frz = none ∧ tFrzDue.freezeDue = true ∧ tFrzDue.trapDue = false ∧
    tFrzDue.haltDue = false ∧ tFrzDue.stopDue = false := by unfold Quiet; decide +kernel
/-- Stall cycle 84 of a freeze whose request was released in stall cycle 52. -/
def tLift : State := atStall (tIn { st := .stalled }) 184
  { frz := some { cyc := 84, held := true, gateEnd := 0, timedFrom := 0 }, reqs := [{ src := 0, half := 0, unit := 0, raised := 76, released := some 152 }] }
theorem wit_FreezeLiftsAfterTheLastRelease : Quiet tLift ∧ tLift.life.powerFailed = false ∧ tLift.liftReady = true ∧
    tLift.stall.frz = some { cyc := 84, held := true, gateEnd := 0, timedFrom := 0 } ∧ tLift.doing OP.STREAM_RESUME = false ∧
    (84 % 12 = 0 ∧ 52 + 24 ≤ 84) := by unfold Quiet; decide +kernel
def tWindow : State := atStall tRun 192 { windows := true }
theorem wit_GatingWindowOpens : Quiet tWindow ∧ tWindow.life.powerFailed = false ∧ tWindow.windowDue = true ∧ tWindow.stall.gateNew = [] := by
  unfold Quiet; decide +kernel
def tDebug : State := atStall (tRun.fset F.STR_DEBUG_DBGEN 0 0 1) 0
  { reqs := [{ src := 4, half := 0, unit := 0, raised := 0 }, { src := 4, half := 1, unit := 0, raised := 0 }] }
def tStepped : State := atStall tRun 0 { debugLeft := some 0 }
theorem wit_DebugStepsRunAndRefreeze : Quiet tDebug ∧ tDebug.ready = true ∧ tDebug.flag F.STR_DEBUG_DBGEN = true ∧ tDebug.debugHeld = true ∧
    Quiet tReady ∧ tReady.ready = true ∧ tReady.flag F.STR_DEBUG_DBGEN = false ∧
    Quiet tStepped ∧ tStepped.life.powerFailed = false ∧ tStepped.str.st = .running ∧ tStepped.stall.frz = none ∧
    tStepped.stall.debugLeft = some 0 ∧ tStepped.trapDue = false ∧ tStepped.haltDue = false ∧ tStepped.stopDue = false := by
  unfold Quiet; decide +kernel
def tStart : State := tIn { st := .running, starting := true }
def tTooLong : State := atStall ((tIn { st := .stalled }).fset F.STR_STALLMAX_LIMIT 0 0 100) 1000
  { frz := some { cyc := 200, held := true, gateEnd := 24, timedFrom := 0 } }
def tReplayHeld : State := atStall tRun 50
  { reqs := [{ src := 0, half := 1, unit := 3, raised := 0 }, { src := 1, half := 0, unit := 3, raised := 0 }] }
def tServed : State := atStall (tIn { st := .stalled }) 2000
  { frz := some { cyc := 1900, held := true, gateEnd := 0, timedFrom := 0 }, reqs := [{ src := 1, half := 0, unit := 3, raised := 76 }] }
theorem wit_StreamStartsReleasesAndTimesOut : tStart.powered = true ∧ tStart.str.st = .running ∧ tStart.str.starting = true ∧
    tStart.str.startHeld = false ∧ tStart.stall.lanes % 4 ≠ 0 ∧ tTooLong.stallTooLong = true ∧ tTooLong.powered = true ∧
    Quiet tReplayHeld ∧ tReplayHeld.powered = true ∧ tReplayHeld.releases 0 1 3 = true ∧
    tServed.powered = true ∧ tServed.releases 1 0 3 = true := by unfold Quiet; decide +kernel
theorem wit_BundleAdvancesScnt : tRun.bundleRuns = true ∧ ¬ (tRun.str.off + 1 = (tRun.ctlBlk tRun.str.blk).len ∧ (tRun.ctlBlk tRun.str.blk).kind = 4) ∧
    tRun.str.off + 1 ≠ (tRun.ctlBlk tRun.str.blk).len := by decide +kernel
def tMbx : State := tIn { st := .running, scnt := 100, pendingMbx := [{ slot := 3, bytes := List.replicate 64 1, due := 100 }] }
theorem wit_MailboxEntriesTakeTheirSlots : Quiet tReady ∧ tReady.ready = true ∧ tReady.replayStandby = false ∧ tReady.running = false ∧
    Quiet tRun ∧ tRun.ready = true ∧ tRun.replayStandby = false ∧ tRun.running = true ∧
    (56 % 8 = 0 ∧ (List.replicate 8 (1 : Byte)).length % 8 = 0 ∧ 56 + (List.replicate 8 (1 : Byte)).length ≤ 64) ∧
    Quiet tMbx ∧ (tMbx.str.pendingMbx.find? fun p => p.slot = 3 && decide (p.due ≤ tMbx.str.scnt.toNat)) =
      some { slot := 3, bytes := List.replicate 64 1, due := 100 } := by unfold Quiet; decide +kernel

/-! ### Premises are met: ECP commands -/

def tWarm : State := { tQp with life := { tQp.life with warm := true } }
def tBusy : State := { tQp with cmds := [Cmd.mk OP.CHMAP_SET 0 7 9 GRP_MAP 0 [] []] }
theorem wit_EcpCommandsAreRefusedAtTheAck :
    tQp.ecpRow (.kvRefill tHdr 1) = some (tHdr, OP.KV_REFILL, GRP_PAGES, false, false) ∧ tWarm.hears tHdr.qp = true ∧ tWarm.life.warm = true ∧
    tQp.hears tHdr.qp = true ∧ tQp.lbistRefuses OP.KV_REFILL GRP_PAGES = false ∧
    tQp.fget F.ECP_SESSION_SESSION tHdr.qp ≠ ({ tHdr with session := 8 } : EcpHdr).session.toNat ∧
    tBusy.hears tHdr.qp = true ∧ tBusy.life.warm = false ∧ tBusy.lbistRefuses OP.CHMAP_SET GRP_MAP = false ∧ GRP_MAP ≠ 0 ∧
    tBusy.flag F.ECP_QPSTAT_SESS tHdr.qp = true ∧ tBusy.fget F.ECP_SESSION_SESSION tHdr.qp = tHdr.session.toNat ∧
    (tBusy.cmds.any fun d => d.group = GRP_MAP) = true := by decide +kernel
theorem wit_EcpCommandsAreAcceptedAndNamed :
    tQp.ecpRow (.streamHalt tHdr 1) = some (tHdr, OP.STREAM_HALT, GRP_STREAM, false, true) ∧ tQp.hears tHdr.qp = true ∧
    Takes tQp tHdr OP.STREAM_HALT GRP_STREAM false true := by unfold Takes; decide +kernel
/-- Queue pair 0 without a session; with one; locked out. -/
def tOpen : State := tReady.fset F.ECP_QPSTAT_STATE 0 0 2
def tKey : State := { tOpen with mgmt := { tOpen.mgmt with key := some (List.replicate 32 1) } }
theorem wit_SessionCommandsAct : Quiet tQp ∧ tQp.hears tHdr.qp = true ∧ Takes tQp tHdr OP.EVENT_CFG GRP_SESSION false false ∧
    Takes tQp tHdr OP.SESSION_CLOSE GRP_SESSION false false ∧ Takes tQp tHdr OP.SESSION_OPEN GRP_SESSION true false ∧
    (tQp.taken tHdr).flag F.ECP_QPSTAT_SESS tHdr.qp = true ∧ tOpen.hears tHdr.qp = true ∧ Takes tOpen tHdr OP.SESSION_OPEN GRP_SESSION true false ∧
    (tOpen.taken tHdr).flag F.ECP_QPSTAT_SESS tHdr.qp = false ∧ (tOpen.taken tHdr).flag F.ECP_QPSTAT_LOCK tHdr.qp = false ∧
    (tOpen.taken tHdr).mgmt.key = none ∧ ((tOpen.fset F.ECP_QPSTAT_LOCK 0 0 1).taken tHdr).flag F.ECP_QPSTAT_LOCK tHdr.qp = true ∧
    tKey.hears tHdr.qp = true ∧ Takes tKey tHdr OP.SESSION_OPEN GRP_SESSION true false ∧ (tKey.taken tHdr).mgmt.key.isSome = true := by
  unfold Takes Quiet; decide +kernel
def tProof : State := tKey.setQp 0 { nonce := some (List.replicate 16 2, 7, 0) }
theorem wit_SessionProofOpensOrFails : tProof.hears tHdr.qp = true ∧ Takes tProof tHdr OP.SESSION_PROOF GRP_SESSION true false ∧
    tProof.mgmt.key = some (List.replicate 32 1) ∧ (tProof.qp tHdr.qp).nonce = some (List.replicate 16 2, 7, 0) ∧
    tProof.cc ≤ 0 + 96000000 ∧ 7 = tHdr.session.toNat ∧ 0 + 96000000 < ({ tProof with cc := 96000001 } : State).cc := by
  unfold Takes; decide +kernel
/-- Logical cluster 0 is mapped and ON: host lines for its vaults wait while the stream runs. -/
def tVault : State := tRunQp.fset (F.MLT_MAP_VALID 0) 0 0 1
theorem wit_RegisterAndMemoryCommandsAnswer : tQp.hears tHdr.qp = true ∧ Takes tQp tHdr OP.REG_READ 0 false false ∧
    (1 ≤ (1 : BitVec 8).toNat ∧ (16 : BitVec 8).toNat ≤ 16) ∧ Takes tQp tHdr OP.REG_WRITE 0 false false ∧
    Takes tQp tHdr OP.MEM_READ 0 false false ∧ 16 < (17 : BitVec 8).toNat ∧ (65 : BitVec 64).toNat % 64 ≠ 0 ∧
    hostMayRead 0x4080000000 64 = false ∧ hostMayRead 0x1FFFFFFFC0 64 = true ∧ hostMayRead 0x1FFFFFFFC0 128 = false ∧
    (((tQp.taken tHdr).startRead OP.MEM_READ 0 7 1 0x7F0040300000 64).2.rdreqs.find? fun r => r.req = 0 && r.full).isSome = true ∧
    Takes tVault tHdr OP.MEM_READ 0 false false ∧ (((tVault.taken tHdr).startRead OP.MEM_READ 0 7 1 0 64).2.rdreqs.find? fun r =>
      r.req = ((tVault.taken tHdr).startRead OP.MEM_READ 0 7 1 0 64).1 && r.full) = none := by unfold Takes; decide +kernel
/-- An image whose link class floor is 16 (R58). -/
def tLoaded : State := (withQp (tIn { st := .loaded })).putBytes (ctlAddr 0 25) [16]
def tTrapped : State := withQp (tIn { st := .trapped })
theorem wit_StreamLoadAndStart : Takes tQp tHdr OP.STREAM_LOAD GRP_STREAM false false ∧ tQp.str.st = .idle ∧ tQp.life.molt = none ∧
    tRunQp.hears tHdr.qp = true ∧ Takes tRunQp tHdr OP.STREAM_LOAD GRP_STREAM false false ∧ tRunQp.str.st = .running ∧
    Takes tLoaded tHdr OP.STREAM_START GRP_STREAM false false ∧ (tQp.taken tHdr).startRefusal true = some ST.STATE ∧
    (tLoaded.taken tHdr).startRefusal true = none ∧ (tLoaded.taken tHdr).replayStandby = false := by unfold Takes; decide +kernel
theorem wit_StreamCommandsMoveTheStream : Takes tRunQp tHdr OP.STREAM_HALT GRP_STREAM false true ∧ tRunQp.running = true ∧
    tRunQp.str.haltStep = none ∧ Takes tQp tHdr OP.STREAM_HALT GRP_STREAM false true ∧ tTrapped.hears tHdr.qp = true ∧
    Takes tTrapped tHdr OP.STREAM_RESUME GRP_STREAM false false ∧ (tTrapped.taken tHdr).flag F.CIC_STAT_PACED = false ∧
    tTrapped.str.st = .trapped ∧ (tTrapped.taken tHdr).resume.1 = false ∧
    ((tTrapped.fset F.CIC_STAT_PACED 0 0 1).taken tHdr).flag F.CIC_STAT_PACED = true := by unfold Takes; decide +kernel

/-! ### Premises are met: vaults, cores and maps -/

theorem wit_RowmapsAndDeskewFollowTheirRows : Quiet tReady ∧ tReady.ready = true ∧ tReady.locked = false ∧
    (∀ r ∈ rowmapFailed 0x7F91, r ≤ 65) ∧ (rowmapFailed 0x7F91).Nodup ∧ tRun.ready = true ∧ tRun.locked = true ∧
    (∃ r ∈ rowmapFailed 0xC2, 65 < r) ∧ ¬ (rowmapFailed 0x9191).Nodup ∧ [65, 0].length ≤ 2 := by unfold Quiet; decide +kernel
theorem wit_RefreshFollowsItsBand : ({ tReady with cc := 3744 } : State).awake = true ∧ ({ tReady with cc := 3744 } : State).powered = true ∧
    3744 * (smGet 0 ({ tReady with cc := 3744 } : State).refIvl 0 + 1) ≤ ({ tReady with cc := 3744 } : State).cc ∧ 4351 < 4352 ∧
    ((tRun.running = true) ∧ (((tRun.setOwed (chanOfNum 0) 8).owedHi (chanOfNum 0)) ≤ (tRun.setOwed (chanOfNum 0) 8).owed (chanOfNum 0))) ∧
    (1 ≤ 3 ∧ 75000000 + 10000000 * (3 : Int) < 105000001) ∧ ({ tReady with cc := 3744 } : State).clocked 0 = true ∧
    ({ tRun with cc := 3744 } : State).running = true ∧ ({ tRun with cc := 3744 } : State).awake = true ∧ ({ tRun with cc := 3744 } : State).powered = true ∧
    ({ tRun with cc := 3744 } : State).clocked 1 = true ∧ (chanOfNum 0).half = 0 ∧ (chanOfNum 4351).half = 1 ∧
    (tRun.setChState (chanOfNum 0) CH.MAPPED_OUT).selfRef (chanOfNum 0) = true ∧ tRun.selfRef (chanOfNum 4351) = false := by decide +kernel
def tRetrain : State := { tReady with cmds := [Cmd.mk OP.CHMAP_SET 0 7 1 GRP_MAP 0 [0, 2, 5, 0] []] }
theorem wit_ChannelMapFollowsItsTable : tQp.hears tHdr.qp = true ∧ Takes tQp tHdr OP.CHMAP_SET GRP_MAP false false ∧
    (tQp.taken tHdr).moltOn (chmapChan 0 4095).half = false ∧ tQp.running = false ∧
    ((tQp.taken tHdr).chmapApply (chmapChan 1 255) 3).1 = some ST.OK ∧
    (((tQp.taken tHdr).setChState (chmapChan 1 255) CH.OFFLINE).chmapApply (chmapChan 1 255) 2).1 = none ∧
    Takes tRunQp tHdr OP.CHMAP_SET GRP_MAP false false ∧ tRunQp.running = true ∧ (tRunQp.taken tHdr).moltOn (chmapChan 1 0).half = false := by
  unfold Takes; decide +kernel
theorem wit_RetrainingEnds : tRetrain.clocked (Chan.vault 1 1).half = true ∧ tRetrain.cmdOf OP.CHMAP_SET ≠ none ∧ tRetrain.retrainCmd = some (.vault 1 1) ∧ tRetrain.awake = true ∧ tRetrain.powered = true ∧ tRetrain.retraining = some (.vault 1 1) ∧
    (tReady.setChState (.vault 0 0) CH.RETRAINING).retraining = some (.vault 0 0) ∧
    (tReady.setChState (.vault 0 0) CH.RETRAINING).retrainCmd ≠ some (.vault 0 0) := by decide +kernel
/-- Engine 8 stands in record 1 of 3; its call has run, and its record asks for one row of one query at OUT = 0x17FF00. -/
def tAtt (pois lapsed : Bool) : State := ({ tRun with str := { tRun.str with scnt := 2000 } }.fset F.KVP_SAEJOB_NJOB 8 0 3).setSae 8 { next := 1, call := some {
  last := 1998, job := leBytes 64 (0x17FF00 * 2 ^ 96 + 1 * 2 ^ 160 + 1 * 2 ^ 176 + 1 * 2 ^ 184 + 1 * 2 ^ 200 + 1 * 2 ^ 208 + 1 * 2 ^ 216), desc := List.replicate 320 0,
  pois := pois, lapsed := lapsed } }
theorem wit_KvRefillAndAttentionCalls : tQp.hears tHdr.qp = true ∧ Takes tQp tHdr OP.KV_REFILL GRP_PAGES false false ∧ tQp.running = false ∧
    Takes tRunQp tHdr OP.KV_REFILL GRP_PAGES false false ∧ tRunQp.running = true ∧ (tAtt false false).saeReady 8 = true ∧
    (tAtt true false).saeReady 8 = true ∧ (tAtt false true).saeReady 8 = true ∧ (((tAtt true true).saeOf 8).call.all fun c =>
      let j := jobOf c.job
      decide (j.out + j.g * j.nq * j.rowLen = 0x180000)) = true := by unfold Takes; decide +kernel
/-- Core 1023's reserve is gone, and one page is free. -/
def tKv : State := ((tQp.fset F.KVP_STAT_RSVTAKEN 1023 0 1).fset F.KVP_FREE_COUNT 1023 0 1).fset F.KVP_FREE_HEAD 1023 0 5
theorem wit_KvRefillTakesAPage : (1 <<< 1023 : BitVec 1024).getLsbD 1023 = true ∧ tKv.flag F.KVP_STAT_RSVTAKEN 1023 = true ∧
    tKv.fget F.KVP_FREE_COUNT 1023 ≠ 0 ∧ tQp.flag F.KVP_STAT_RSVTAKEN 1023 = false ∧ tKv.hears tHdr.qp = true ∧
    Takes tKv tHdr OP.KV_REFILL GRP_PAGES false false := by unfold Takes; decide +kernel
theorem wit_SingleSymbolErrorsAreCorrected : rsDecode 3 (synOf 3 34 255) [] = .corr [(34, 255)] (some 34) ∧
    rsDecode 4 (synOf 4 0 1) [] = .corr [(0, 1)] (some 0) := by decide +kernel

/-! ### Premises are met: Weevil engines -/

/-- Channel (127, 7) is enabled and has read the descriptor `d`, the only one of its ring. -/
def tGot (g : WGot) : State :=
  ((({ tRun with str := { tRun.str with scnt := 10 } }.fset F.WVL_CHCTL_EN 127 7 1).fset F.WVL_IDX_PROD 127 7 1).setWch 127 7 { got := some g })
def gotOf (d : List Byte) : WGot := { line := d.map some }
def tWv (op : Byte) : State := tGot (gotOf (op :: List.replicate 63 0))
/-- A post of that descriptor, due in SCNT 10. -/
def tPost : State := ({ tRun with str := { tRun.str with scnt := 9 } }.fset F.WVL_CHCTL_EN 127 7 1).fset F.WVL_IDX_PROD 127 7 1
theorem wit_WeevilDescriptorsStart : (tWv 0).wvReady 127 7 0 = true ∧ (tWv 1).wvReady 127 7 1 = true ∧ (tWv 2).wvReady 127 7 2 = true ∧
    (tWv 3).wvReady 127 7 3 = true ∧ (tWv 4).wvReady 127 7 4 = true ∧ (tWv 5).wvReady 127 7 5 = true ∧ (tWv 6).wvReady 127 7 6 = true ∧
    (tWv 7).wvReady 127 7 7 = true ∧ (tWv 8).wvReady 127 7 8 = true ∧ (tWv 9).wvReady 127 7 9 = true ∧ (tWv 10).wvReady 127 7 10 = true ∧
    (tPost.setWch 127 7 { posts := [{ first := 0, count := 1, due := 9 }] }).wvFetches 127 7 9 = true := by
  decide +kernel
/-- COPY of eight lines from `src` to the scratch of core 1,016, with RSV `rsv`. -/
def dCopy (src rsv : Nat) : List Byte := leBytes 64 (1 + rsv * 2 ^ 64 + src * 2 ^ 128 + scratchAddr 1016 4096 * 2 ^ 192 + 8 * 2 ^ 320)
/-- PAGE_FREE, mode 0, of a segment of core 1,016. -/
def dFree : List Byte := leBytes 64 (7 + 16 * 2 ^ 64 + scratchAddr 1016 0 * 2 ^ 128)
def longStep (s : State) : State := s.putBytes (ctlAddr 0 16) (leBytes 4 100000)
theorem wit_WeevilDescriptorsBegin : ({ line := [none] } : WGot).desc = none ∧ (tGot { line := [none] }).wvReady 127 7 0 = true ∧
    ({ line := [], uncorr := true } : WGot).desc = none ∧
    (gotOf (dCopy (scratchAddr 1016 0) 99)).desc = some (dCopy (scratchAddr 1016 0) 99) ∧
    (let s := tGot (gotOf (dCopy (scratchAddr 1016 0) 99)); let d := dCopy (scratchAddr 1016 0) 99;
      s.wvReady 127 7 1 = true ∧ s.dCheck 127 d (s.dBf16 d) = none ∧ dWorst d (s.dBf16 d) ≤ dRsv d ∧ isPageOp d = false) ∧
    (let s := tGot (gotOf (dCopy (scratchAddr 1016 0) 8)); let d := dCopy (scratchAddr 1016 0) 8;
      s.wvReady 127 7 1 = true ∧ s.dCheck 127 d (s.dBf16 d) = none ∧ dRsv d < dWorst d (s.dBf16 d)) ∧
    (let s := tGot (gotOf (dCopy (scratchAddr 1016 1) 99)); let d := dCopy (scratchAddr 1016 1) 99;
      s.wvReady 127 7 1 = true ∧ s.dCheck 127 d (s.dBf16 d) = some (ST.UNALIGNED, 8)) ∧
    (let s := longStep (tGot (gotOf dFree));
      s.wvReady 127 7 7 = true ∧ s.dCheck 127 dFree (s.dBf16 dFree) = none ∧ dWorst dFree (s.dBf16 dFree) = dRsv dFree ∧ isPageOp dFree = true ∧
      (s.wv 127).wait = [] ∧ (s.wv 127).puFree ≤ s.now - 1 ∧ s.str.stepBase ≤ s.now - 1 ∧ s.now - 1 + 384 < s.str.stepBase + s.ctlStepLen ∧
      ((s.setWv 127 { s.wv 127 with puFree := 10 }).wvReady 127 7 7 = true ∧ s.now - 1 < ((s.setWv 127 { s.wv 127 with puFree := 10 }).wv 127).puFree)) := by
  decide +kernel
def tWrun : WRun := { idx := 0, op := 4, tag := 0, start := 0, rsv := 8, fin := some 9 }
def tUnit (ch : Fin 8) : State := ({ tRun with str := { tRun.str with scnt := 10 } }.setWv 3 { chs := [(ch, { run := some tWrun })], wait := [2] })
theorem wit_DescriptorsTakeTheUnitAndComplete : (tUnit 2).str.st = .running ∧ (tUnit 2).stall.frz = none ∧ ((tUnit 2).wv 3).wait = [2] ∧
    ((tUnit 2).wv 3).puFree ≤ (tUnit 2).now ∧ ((tUnit 2).wch 3 2).run = some tWrun ∧ 8 ≤ tWrun.rsv ∧ ((tUnit 7).wch 3 7).run = some tWrun ∧
    tWrun.fin = some 9 ∧ 9 < (tUnit 7).now ∧ ((tUnit 7).wv 3).kvLate = false ∧ tWrun.lost = false ∧ (tUnit 7).failed ((tUnit 7).ringCore 3 7) = false ∧
    (tUnit 7).statusOff 3 7 0 + 16 ≤ 0x180000 ∧ ({ tWrun with lost := true } : WRun).lost = true := by decide +kernel
theorem wit_ChannelCommandsWaitOrAct : (tReady.wch 127 7).haltAt ≠ tReady.now + 1 ∧ Quiet tRun ∧ tRun.ready = true ∧ tRun.running = true ∧ Quiet tReady ∧ tReady.ready = true ∧
    tReady.running = false := by unfold Quiet; decide +kernel

/-! ### Premises are met: side stacks and Scarab compute -/

/-- Channel 31 of stack 7 stands at an entry of operation `op` with operand `opnd`, at SCNT 0 (slots 0 and 1), or 7 (slot 15). -/
def tSide (op opnd : Nat) (scnt : BitVec 64) (used : Nat) : State :=
  ({ tRun with str := { tRun.str with scnt := scnt } }.putBytes (cmdKey 7 0) (leBytes 8 (op * 2 ^ 48 + opnd))).setSc 7 31
    { next := used, cur := { pos := 0, rest := 1, used := 0, live := true } }
theorem wit_SideSlotsRunOnce : (tSide 1 0 0 0).nextSlot 7 31 = some 0 ∧ 0 % 16 ≠ 15 ∧ (tSide 1 0 0 0).slotKind 7 31 = some (1, 0) ∧
    (tSide 2 0 0 0).slotKind 7 31 = some (2, 0) ∧ (tSide 3 0 0 0).slotKind 7 31 = some (3, 0) ∧ (tSide 4 0 0 0).slotKind 7 31 = some (4, 0) ∧
    (tSide 5 0 0 0).slotKind 7 31 = some (5, 0) ∧ (tSide 6 0 0 0).slotKind 7 31 = some (6, 0) ∧
    (tSide 6 (2 ^ 40) 0 0).slotKind 7 31 = some (6, 1) ∧ (tSide 1 0 7 15).nextSlot 7 31 = some 15 ∧ 15 % 16 = 15 := by decide +kernel
/-- Channel 31 of stack `k` stands at the entry `e`, with reductions `reds`. -/
def tEnt (k e : Nat) (scnt : BitVec 64) (used : Nat) (reds : List (Nat × Red)) : State :=
  ({ tRun with str := { tRun.str with scnt := scnt } }.putBytes (cmdKey k 0) (leBytes 8 e)).setSc k 31
    { next := used, reds := reds, cur := { pos := 0, rest := 1, used := 0, live := true } }
def tRedOf (deadline : Nat) (judged : Bool) : Red :=
  { aop := 0, fmt := 0, exp := 1, deadline := deadline, judged := judged, lines := [List.replicate 64 (some 0)], cnts := [1] }
/-- Nothing but the entry falls in slot `n`. -/
def alone (s : State) (k n : Nat) : Bool := (s.sc k 31).evts = [] && (s.sc k 31).lease.isNone && s.nextSlot k 31 = some n &&
  (s.sc k 31).reds.all fun p => p.2.judged || decide (n < p.2.deadline)
def tScb (e : Nat) : State := ((tEnt 0 e 0 0 []).fset F.SCB_CTL_EN 0 0 1).fset F.LIC_STAT_INFORCE 0 0 1
def eLease : Nat := 6 * 2 ^ 48 + 1 + 2 ^ 8
def eBcast : Nat := 6 * 2 ^ 48 + 2 ^ 40
def tBcast : State := (tEnt 3 eBcast 0 0 []).setStk 3 { ing := [(0, [{ data := [] }])] }
def tFill : State := (tEnt 7 0 7 15 []).setStk 7 { fills := [{ start := 15, ch := 31, count := 1, src := 0, line := 0 }] }
theorem wit_SideSlotsDoTheirEntry :
    (let s := tEnt 7 (2 ^ 48) 0 0 []; alone s 7 0 = true ∧ s.slotKind 7 31 = some (1, 0) ∧ (s.sag 7 (chanSagAt 31 0)).ok = true ∧
      (s.sag 7 (chanSagAt 31 0)).ind = false ∧ (s.sag 7 (chanSagAt 31 0)).dir = 0 ∧ 0 ≤ (s.sag 7 (chanSagAt 31 0)).at 0 ∧
      ((s.setChState (.side 7 31) CH.MAPPED_OUT).chPresent (.side 7 31) 0 = false) ∧
      ((s.putBytes (cmdKey 7 (chanSagAt 31 0 + 12)) [1]).sag 7 (chanSagAt 31 0)).dir = 1) ∧
    (let e := 2 ^ 48 * (2 + 16 * 159); let s := tEnt 7 e 0 0 []; alone s 7 0 = true ∧ s.slotKind 7 31 = some (2, 0) ∧ eNslot e = 160) ∧
    (let e := 2 ^ 48 * 4 + 2 ^ 30; let s := tEnt 7 e 0 0 [(1, tRedOf 1 false)]; alone s 7 0 = true ∧ s.slotKind 7 31 = some (4, 0) ∧
      eNslot e = 1 ∧ bits (eOpnd e) 5 4 ≠ 3 ∧ bits (eOpnd e) 43 30 ≠ 0) ∧
    (let s := tEnt 7 (2 ^ 48 * 5) 0 0 [(0, tRedOf 0 true)]; alone s 7 0 = true ∧ s.slotKind 7 31 = some (5, 0) ∧
      s.red 7 31 0 = some (tRedOf 0 true) ∧ (tRedOf 0 true).lines[0]? = some (List.replicate 64 (some 0)) ∧ (tEnt 7 (2 ^ 48 * 5) 0 0 []).red 7 31 0 = none) ∧
    (alone (tScb eLease) 0 0 = true ∧ (tScb eLease).slotKind 0 31 = some (6, 0) ∧ (tScb eLease).leaseRefusal 0 31 0 eLease = none ∧
      (tEnt 3 eLease 0 0 []).leaseRefusal 3 31 0 eLease ≠ none) ∧
    (alone tBcast 3 0 = true ∧ tBcast.slotKind 3 31 = some (6, 1) ∧ bits (eOpnd eBcast) 39 10 = 0 ∧ within 0 3 (tBcast.sc 3 31).lastRead = false ∧
      tBcast.ingress 3 0 = { data := [] } :: []) ∧
    (alone tFill 7 15 = true ∧ tFill.dueFill 7 31 15 = some { start := 15, ch := 31, count := 1, src := 0, line := 0 } ∧
      alone (tEnt 7 0 7 15 []) 7 15 = true ∧ (tEnt 7 0 7 15 []).dueFill 7 31 15 = none ∧ (tEnt 7 0 7 15 []).hostPick 7 31 15 = none) := by
  decide +kernel
theorem wit_ReductionsAreJudgedOnce : let s := tEnt 6 0 0 1 [(0, tRedOf 1 false), (1, tRedOf 0 true), (2, tRedOf 2 false)]
    s.nextSlot 6 31 = some 1 ∧ ((s.sc 6 31).reds.any fun p => !p.2.judged && decide (p.2.deadline ≤ 1)) = true ∧
    ((s.sc 6 31).reds.map (·.1)).Nodup ∧ s.red 6 31 0 = some (tRedOf 1 false) ∧ s.red 6 31 1 = some (tRedOf 0 true) ∧
    s.red 6 31 2 = some (tRedOf 2 false) := by decide +kernel
def tRed : State := tRun.setSc 6 9 { reds := [(3, { aop := 0, fmt := 0, exp := 8, deadline := 1, lines := [[], []], cnts := [8, 7] })], next := 1 }
def tLease : State := tRun.setSc 0 31 { lease := some { start := 0, lenf := 0, gmask := 1, job := [], jrec := 0, runs := false, fb := 0, fc := 0 } }
theorem wit_ReductionsAndLeasesEnd : tRed.nextSlot 6 9 = some 1 ∧
    ((tRed.sc 6 9).reds.any fun p => !p.2.judged && decide (p.2.deadline ≤ 1)) = true ∧ Quiet tLease ∧ tLease.nextSlot 0 31 = some 0 ∧
    (tLease.sc 0 31).lease = some { start := 0, lenf := 0, gmask := 1, job := [], jrec := 0, runs := false, fb := 0, fc := 0 } ∧
    0 + 25 * 0 ≤ 0 := by unfold Quiet; decide +kernel
def tLane : State := tRun.setStk 7 { lanes := [(7, { cur := { rest := 1, live := true } })] }
theorem wit_CacheLanesAndScarabEnable : tLane.str.st = .running ∧ tLane.stall.frz = none ∧ tLane.str.starting = false ∧
    (smGet {} (tLane.stkOf 7).lanes 7).cur.live = true ∧ (smGet {} (tLane.stkOf 7).lanes 7).next ≤ tLane.nowS ∧
    Quiet tReady ∧ tReady.ready = true := by unfold Quiet; decide +kernel

/-! ### Premises are met: the Ittaing link -/

def tLine : ItlLine := { tL := 0, phase := 0, mod := 15, pos := 0, route := 0, data := { data := [] } }
def inLink (s : State) (st : Nat) (d : ItlDir) : State := (s.fset F.ITL_STAT_STATE 15 0 st).setDir 15 1 d
def tTrain : State := inLink tReady LK.TRAIN {}
def tCheck (chk : List Nat) : State := (inLink tReady LK.CHECK {}).setItl 15 { prop := 2, chk := chk }
def tFast : State := (inLink tReady LK.TRAIN {}).setItl 15 { fast := some (0, 3) }
theorem wit_LinkClassAndTraining : tTrain.powered = true ∧ tTrain.itlState 15 = LK.TRAIN ∧ (tTrain.itlOf 15).fast = none ∧
    (10 < (11 : BitVec 4).toNat) ∧ (tTrain.itlOf 15).since + tTrain.trainLimit ≤ ({ tTrain with cc := 9600 } : State).cc ∧
    tTrain.fget F.ITL_STAT_ATTEMPT 15 < 2 ∧ 2 ≤ (tTrain.fset F.ITL_STAT_ATTEMPT 15 0 2).fget F.ITL_STAT_ATTEMPT 15 ∧
    (tCheck [0]).itlState 15 = LK.CHECK ∧ (2 : BitVec 8).toNat = ((tCheck [0]).itlOf 15).prop ∧ 1 ∉ ((tCheck [0]).itlOf 15).chk ∧
    ((tCheck [0]).itlOf 15).chk.length = 1 ∧ ((tCheck []).itlOf 15).chk = [] ∧ (1 : BitVec 8).toNat ≠ ((tCheck []).itlOf 15).prop ∧
    (tFast.itlOf 15).fast.isSome = true ∧ (1 ≤ 15 ∧ (1 : Nat) = 32 - 2 * 15 - 1) := by decide +kernel
def tLink (d : ItlDir) : State := inLink { tRun with cc := 2000, str := { tRun.str with scnt := 64 } } LK.ACTIVE d
theorem wit_FlitsAndLinesGoInOrder : (tLink { q := [tLine] }).powered = true ∧ ((tLink { q := [tLine] }).acks 15 1).canLaunch 15 1 = true ∧
    (((tLink { q := [tLine] }).acks 15 1).itlDir 15 1).again = none ∧
    ((tLink { wire := [(2000, 4)], rx := 4 }).itlDir 15 1).wire = [(2000, 4)] ∧ 4 = ((tLink { wire := [(2000, 4)], rx := 4 }).itlDir 15 1).rx ∧
    5 ≠ ((tLink { wire := [(2000, 5)], rx := 4 }).itlDir 15 1).rx ∧
    (tLink { replay := [{ seq := 4, lines := [], at_ := 848 }] }).replayDue 15 1 = true ∧
    (tLink {}).str.st = .running ∧ (tLink {}).stall.frz = none ∧
    (((tLink { waiting := [tLine] }).itlDir 15 1).waiting.any fun l => l.tL + 64 = (tLink { waiting := [tLine] }).nowS) = true ∧
    (tLink {}).running = true ∧ (tLink { missing := [(4, 27, false)] }).stallPoint 15 1 = true ∧ (tLink { q := [tLine] }).isLate 15 1 = true := by
  decide +kernel
def tFlit (tries : Nat) : Flit := { seq := 4, lines := [], at_ := 848, tries := tries }
theorem wit_FlitsOfEachChannelAndReplays : ((tLink { q := [tLine] }).acks 15 1).nextVc 15 1 = some 0 ∧
    (∀ k ∈ [VKind.readRequest, VKind.mailbox], let s := (tLink { vq := [{ desc := k.code * 2 ^ 26, line := [], mod := 15 }] }).acks 15 1;
      s.canLaunch 15 1 = true ∧ (s.itlDir 15 1).again = none ∧ s.nextVc 15 1 = some k.vc) ∧ VKind.readRequest.vc = 1 ∧ VKind.mailbox.vc = 2 ∧
    (∀ n ∈ [6, 7], let s := (tLink { replay := [tFlit n], again := some (4, 2000) }).acks 15 1;
      s.canLaunch 15 1 = true ∧ (s.itlDir 15 1).again = some (4, 2000) ∧ ((s.itlDir 15 1).replay.find? fun z => z.seq = 4) = some (tFlit n)) ∧
    (let errs (k : Nat) := List.replicate k ((67, 5) : Nat × Nat);
      let count (k : Nat) := ((errs k).filter fun p => p.1 = 67).length;
      count 15 < 16 ∧ 16 ≤ count 16 ∧ 6 < 5 + 2 ^ 20) := by decide +kernel
theorem wit_LinkLanesAndControl : (tLink {}).powered = true ∧ (tLink {}).itlActive 15 = true ∧
    (∀ p ∈ ((tLink { errs := List.replicate 15 (67, 0) }).itlDir 15 1).errs, p.2 < 16) ∧ (tLink {}).laneFailed 15 1 67 = false ∧
    Quiet (tLink {}) ∧ (tLink {}).ready = true ∧ (tLink {}).itlState 15 = LK.ACTIVE ∧ tTrain.itlState 15 ≠ LK.ACTIVE ∧
    tTrain.itlState 15 ≠ LK.DOWN ∧ tTrain.itlState 15 ≠ LK.FENCED := by unfold Quiet; decide +kernel
/-- R388: the CRC sees every single flipped bit, but not an error that is a code word itself. -/
theorem test_stall_crc : (∀ i < 32, frameBad (tRun.stallWord 0 ^^^ BitVec.ofNat 32 (2 ^ i)) = true) ∧ frameBad (tRun.stallWord 0) = false ∧
    frameBad (tRun.stallWord 0 ^^^ 0x30000001) = false := by decide +kernel
theorem wit_StallLanesCarryOrFault : frameBad (tRun.stallWord 1 ^^^ 1) = true ∧ frameBad (tRun.stallWord 1 ^^^ 0) = false ∧
    (0 ∈ tRun.stallLanesUp 1 ∧ 1 ∈ tRun.stallLanesUp 1) ∧ tRun.powered = true ∧ tRun.stallLanesUp 1 ≠ [] ∧ Quiet tRun ∧ 1 ∈ tRun.stallLanesUp 1 ∧
    tRun.stall.laneBad.length < 15 ∧ tReady.running = false ∧ tReady.stallLanesUp 0 ≠ [] := by unfold Quiet; decide +kernel

/-! ### Premises are met: ports, connections and sessions -/

def tPort : State := (tReady.fset F.ETH_STAT_LINK 7 0 1).fset F.ETH_CTL_FIXRATE 7 0 1
theorem wit_EthernetPortsActOnFrames : Quiet tPort ∧ tPort.portHears 7 = true ∧ tPort.portsRun = true ∧ tPort.flag F.ETH_STAT_LINK 7 = true ∧
    (tPort.fset F.ETH_CTL_AN 6 0 0).flag F.ETH_STAT_LINK 6 = false ∧
    ((tReady.fset F.ETH_CTL_AN 6 0 1).rateOk 6 (2 : BitVec 2).toNat = true) ∧ tPort.flag F.ETH_STAT_MODE 7 = false ∧ tPort.ready = true ∧
    (tPort.fset F.ETH_STAT_MODE 7 0 1).flag F.ETH_STAT_MODE 7 = true := by unfold Quiet; decide +kernel
/-- All 256 queue pairs are in use. -/
def tFull : State := { tPort with regs := tPort.regs ++ (List.range 256).map fun q => (Reg.addr .ECP_QPSTAT q 0, 1) }
theorem wit_ConnectionsComeAndGo : Quiet tPort ∧ tPort.portHears 7 = true ∧ tPort.ready = true ∧ tPort.freeQp = some 0 ∧
    (tPort.fset F.BST_BRINGUP_PHASE 0 0 9).portHears 7 = true ∧ (tPort.fset F.BST_BRINGUP_PHASE 0 0 9).ready = false ∧
    tFull.freeQp = none ∧ tFull.ready = true ∧ tFull.portHears 7 = true ∧ tFull.fget F.ECP_QPSTAT_STATE 255 = 1 ∧ tFull.awake = true := by
  unfold Quiet; decide +kernel
theorem wit_RdmaIsTakenOrNaked : Quiet tQp ∧ tQp.rdmaHears 0 = true ∧ tQp.rdmaDenied 0 1 (hostMayWrite 0 8) = true ∧
    tQp.rdmaDenied 0 0 (hostMayRead 0x4080000000 8) = true ∧ tQp.rdmaDenied 0 0 (hostMayWrite 0x407FFFFFF8 8) = false ∧
    hostRegion 0x407FFFFFF8 ≠ 6 ∧ tQp.rdmaDenied 0 0 (hostMayRead 0x407FFFFFF8 8) = false ∧
    (tQp.rdreqs.filter fun r => r.op = 0x20 ∧ r.qp = 0).length < 16 ∧ tOpen.flag F.ECP_QPSTAT_SESS 0 = false ∧ tOpen.rdmaHears 0 = true := by
  unfold Quiet; decide +kernel
/-- Logical cluster 0 is mapped, and the stream runs or does not. -/
def tMap : State := tQp.fset (F.MLT_MAP_VALID 0) 0 0 1
def tRead (req len : Nat) : ReadReq := { req := req, op := 0x20, qp := 0, session := 0, tag := 0, addr := 0, len := len, lines := ceilDiv len 64 }
def tHostLine (write : Bool) (a n : Nat) : HLine := { write := write, addr := a, len := n, data := List.replicate n 1, qp := 0, since := 0 }
/-- A bank of a side channel stands open. -/
def tBank : State := (tMap.fset (F.SSK_CHMAP_STATE 0) 0 0 CH.ONLINE).setChan (.side 0 0) { banks := [(0, { row := some 0 })] }
theorem wit_RdmaReachesEachRegion : Quiet tMap ∧ tMap.rdmaHears 0 = true ∧ tMap.clocked (halfOfPort (tMap.qpPort 0)) = true ∧
    (let a := scratchAddr 0 0x17FFF8;
      tMap.rdmaDenied 0 0 (hostMayWrite a 8) = false ∧ a % 64 + 8 ≤ 64 ∧ tMap.crosses (tHostLine true a 8) = false ∧ tMap.hostRoute (tHostLine true a 8) = true ∧
      tMap.hostHolds (tHostLine true a 8) = false ∧ placeOf a = .scratch 0 0x17FFF8 ∧ tMap.present (.scratch 0 0x17FFF8) = true ∧
      tVault.crosses (tHostLine true a 8) = false ∧ tVault.hostRoute (tHostLine true a 8) = true ∧ tVault.running = true ∧
      tVault.meshRoom (tHostLine true a 8) = true ∧ tVault.ports = [] ∧ tVault.rdmaHears 0 = true ∧ hostRegion a ≠ 6) ∧
    (let a := sideAddr 0 0 0;
      tBank.crosses (tHostLine true a 8) = false ∧ tBank.hostRoute (tHostLine true a 8) = true ∧ tBank.running = false ∧
      tBank.hostHolds (tHostLine true a 8) = true ∧ tBank.hqRoom (hostQueue a) = true ∧ tBank.ports = [] ∧ hostRegion a ≠ 6 ∧
      tBank.rdmaDenied 0 0 (hostMayWrite a 8) = false) ∧
    tMap.crosses (tHostLine true (scratchAddr 1023 0) 8) = true ∧ tMap.rdmaDenied 0 0 (hostMayWrite (scratchAddr 1023 0) 8) = false ∧
    (let a := inSlot 1023 + 56;
      hostRegion a = 6 ∧ tMap.rdmaDenied 0 0 (hostMayWrite a 8) = false ∧ windowOk a 8 = true ∧ windowOk (a + 4) 4 = false ∧
      tMap.rdmaDenied 0 0 (hostMayWrite (a + 4) 4) = false ∧ tMap.running = false ∧ tVault.running = true ∧ tVault.replayStandby = false) ∧
    (let a := 0x7F0040300000;
      4 ≤ hostRegion a ∧ tMap.rdmaDenied 0 0 (hostMayRead a 64) = false ∧ windowOk a 64 = true ∧ windowOk (a + 4) 64 = false ∧
      tMap.rdmaDenied 0 0 (hostMayRead (a + 4) 64) = false ∧ tMap.rdreqs = []) ∧
    (let s := { tMap with rdreqs := (List.range 16).map fun r => tRead r 64, nextReq := 16 };
      16 ≤ (s.rdreqs.filter fun r => r.op = 0x20 ∧ r.qp = 0).length ∧ (∀ r ∈ s.rdreqs, r.req < s.nextReq ∧ r.full = false) ∧ s.rdmaHears 0 = true) := by
  unfold Quiet; decide +kernel
/-- A host line waits at router 58 for output N, which a scheduled line uses. -/
def tMesh : State := ((tVault.fset (F.MLT_MAP_VALID 5) 0 4 1).fset (F.MLT_MAP_PCLUS 5) 0 4 14).meshLine (tHostLine true (scratchAddr 300 0) 8)
theorem wit_HostLinesKeepOffScheduledSlots : tMesh.running = true ∧ tMesh.stall.frz = none ∧
    (tMesh.mesh.map fun m => (m.pos, m.dest, m.key)) = [(58, 14, meshKey 0 58 8)] ∧
    (tMesh.mesh.all fun m => !tMesh.routerDark (66 * m.half + m.pos) && !tMesh.routerDark (66 * m.half + (meshNext m.pos m.out).1)) = true ∧
    tVault.meshEntry (tHostLine true (scratchAddr 8 0) 8) = none := by decide +kernel
def tSend (n r : Nat) : State := { tOpen with cc := 960000001 }.setQp 0 { sendq := [{ kind := 2 }], retries := n, retryCount := r }
def tNonce : State := { tOpen with cc := 96000000 }.setQp 0 { nonce := some ([], 7, 0) }
def tLate : State := { tOpen with cc := 10 ^ 9, hq := [(0, [{ write := true, addr := 0, qp := 0 }])] }
theorem wit_MessagesAndHostDeadlines : Quiet (tSend 3 3) ∧ (tSend 3 3).awake = true ∧ (tSend 3 3).fget F.ECP_QPSTAT_STATE 0 = 2 ∧
    ((tSend 3 3).qp 0).sendq ≠ [] ∧ ((tSend 3 3).qp 0).retryCount ≤ ((tSend 3 3).qp 0).retries ∧
    ((tSend 2 3).qp 0).retries < ((tSend 2 3).qp 0).retryCount ∧ Quiet tNonce ∧ tNonce.awake = true ∧
    (tNonce.qp 0).nonce = some ([], 7, 0) ∧ 0 + 96000000 ≤ tNonce.cc ∧ ({ tNonce with cc := 95999999 } : State).cc < 0 + 96000000 ∧
    ((tSend 0 0).fset F.ECP_QPSTAT_LOCK 0 0 1).flag F.ECP_QPSTAT_LOCK 0 = true ∧
    (((tSend 0 0).fset F.ECP_QPSTAT_LOCK 0 0 1).qp 0).lockedAt + 960000000 ≤ (tSend 0 0).cc ∧ tNonce.hears tHdr.qp = true ∧
    (tSend 3 3).awake = true ∧ ((tSend 3 3).qp 0).rnrRetry ≠ 7 ∧ ((tSend 3 3).qp 0).rnrRetry ≤ ((tSend 3 3).qp 0).rnrs ∧
    (((tSend 3 3).setQp 0 { rnrRetry := 7, rnrs := 9 }).qp 0).rnrRetry = 7 ∧ tLate.awake = true ∧ Quiet tLate ∧ tLate.ports = [] ∧ tLate.itl = [] ∧
    (({ tLate with hq := [(0, [{ write := false, addr := 0, qp := 0, req := 1 }])], rdreqs := [tRead 1 128]  } : State).lateLines = [{ write := false, addr := 0, qp := 0, req := 1 }]) ∧
    tNonce.life.warm = false ∧ tLate.powered = true ∧ tLate.lateLines = [{ write := true, addr := 0, qp := 0 }] := by unfold Quiet; decide +kernel

/-! ### Premises are met: registers -/

theorem wit_ClearsReachTheirOwnRegisters : Quiet tReady ∧ tReady.ready = true ∧
    regAt (Reg.addr .COR_RESLOG1 1023 0) = .reg .COR_RESLOG1 1023 0 ∧ recordOf .COR_RESLOG1 = some (24, [.COR_RESLOG0, .COR_RESLOG1]) ∧
    regAt (Reg.addr .ITL_CTRCLR 0 0) = .reg .ITL_CTRCLR 0 0 ∧ ctrRegs .ITL_CTRCLR ≠ [] ∧
    (16 : BitVec 64).toNat.testBit 4 = true := by unfold Quiet; decide +kernel
theorem wit_RegisterSpaceWrites : tReady.ready = true ∧ (0x7F0000000004 : BitVec 64).toNat % 8 ≠ 0 ∧ regAt 0x7F0000FFFFF8 = .nothing ∧
    regAt 0x7F0040400000 = .table ∧ tReady.locked = false ∧ tRun.ready = true ∧ tRun.locked = true ∧ (135 : BitVec 8).toNat < 136 ∧
    136 ≤ (136 : BitVec 8).toNat ∧ Quiet tReady := by unfold Quiet; decide +kernel

theorem wit_RecordsAndWindowsAreReached : tReady.ready = true ∧ regAt (Reg.addr .STR_STALLMAX 0 0) = .reg .STR_STALLMAX 0 0 ∧ Reg.acts .STR_STALLMAX = false ∧
    (tReady.w1cNow (Reg.addr .STR_STALLMAX 0 0)).bits = 0 ∧ regAt 0x7F0040200000 = .readOnly ∧ regAt 0x7F004010FFF8 = .mailbox ∧
    recordOf .SYS_ERRSTAT = some (0, [.SYS_ERRADDR, .SYS_ERRSTAT, .SYS_ERRCNT]) ∧ (recordOf .LIC_ERRSTAT).any (fun x => decide (x.2.length ≠ 3)) = true ∧
    (let s := (tReady.errSYS 0x7F0000FFFFF8 ST.ABSENT 2);
     (s.w1cNow (Reg.addr .SYS_ERRSTAT 0 0)).bits ≠ 0 ∧ s.ready = true ∧
     (s.w1cNow (Reg.addr .LIC_ERRSTAT 0 0)).bits = 0 ∧ ((s.errLIC 1 1).w1cNow (Reg.addr .LIC_ERRSTAT 0 0)).bits ≠ 0) := by decide +kernel

/-! ### Premises are met: bring-up, resets, Molt and self-test -/

def tPhase (n : Nat) (cc : Nat) : State := { State.reset.fset F.BST_BRINGUP_PHASE 0 0 n with cc := cc }
theorem wit_ColdResetKeepsTheProtectedStore : tReady.life.aon = true ∧ tReady.life.resetN = true ∧ tReady.flag F.PWR_SHUT_LATCH = false ∧
    ({ tReady with life := { tReady.life with aon := false } } : State).life.aon = false := by decide +kernel
theorem wit_BringUpGoesPhaseByPhase : State.reset.life.aon = true ∧ State.reset.flag F.PWR_SHUT_LATCH = false ∧ State.reset.phase = 0 ∧
    State.reset.life.powerFailed = false ∧ (tPhase 2 0).inPhase = true ∧ (tPhase 2 0).phase ≠ 5 ∧ (tPhase 2 0).phase ∈ [1, 2] ∧
    (tPhase 2 0).cc ≤ (tPhase 2 0).life.phaseStart + 960000 * phaseMax (tPhase 2 0).phase ∧ (tPhase 9 0).inPhase = true ∧ (tPhase 9 0).phase = 9 ∧
    (tPhase 8 (10 ^ 12)).inPhase = true ∧ (tPhase 8 (10 ^ 12)).phase ∈ [3, 4, 6, 7, 8] ∧
    (tPhase 8 (10 ^ 12)).life.phaseStart + 960000 * phaseMax (tPhase 8 (10 ^ 12)).phase ≤ (tPhase 8 (10 ^ 12)).cc := by decide +kernel
def withLife (s : State) (l : Life) : State := { s with life := l }
theorem wit_WarmResetsLeaveTheStreamIdle : tQp.hearsReset tHdr.qp = true ∧ Takes tQp tHdr OP.WARM_RESET GRP_REPAIR false true ∧
    tQp.flag F.PWR_SHUT_LATCH = false ∧ tQp.life.unlocked = false ∧ (withLife tQp { unlocked := true }).hearsReset tHdr.qp = true ∧
    (withLife tQp { unlocked := true }).life.unlocked = true ∧ tQp.ready = true ∧ tQp.life.warmN = true ∧ tQp.life.warm = false ∧
    (withLife tReady { warm := true, warmN := false }).life.warm = true ∧ (withLife tReady { warm := true, warmN := false }).awake = true ∧
    (withLife tReady { warm := true, warmN := false }).powered = true ∧ (withLife tReady { warm := true, warmN := false }).life.molt = none ∧
    tReady.fget F.BST_BRINGUP_PHASE = 0xA ∧ tReady.running = false := by unfold Takes; decide +kernel
def tLinks : State := (List.range 16).foldl (fun s m => s.fset F.ITL_STAT_STATE m 0 LK.FENCED) tReady
def tVolt : State := tQp.fset F.PWR_VSET_CODE 0 0 120
theorem wit_RepairsBegin : tQp.hears tHdr.qp = true ∧ Takes tQp tHdr OP.MOLT_HALF GRP_REPAIR false false ∧
    (tQp.taken tHdr).repairRefusal 1 = none ∧ (tQp.taken tHdr).repairRefusal 2 = some ST.DESC ∧
    Takes tQp tHdr OP.LBIST_RUN GRP_REPAIR false false ∧ (tQp.taken tHdr).lbistRefusal 0 0 = some ST.DESC ∧
    (tVolt.taken tHdr).lbistRefusal 0 1 = none := by unfold Takes; decide +kernel
theorem wit_RepairsBeginAndEnd : tLinks.awake = true ∧ tLinks.powered = true ∧ tLinks.linkReady = true ∧
    (withLife tLinks { molt := some { half := 1 } }).life.molt = some { half := 1 } ∧
    (withLife tLinks { molt := some { half := 1, resetOnly := true } }).life.molt = some { half := 1, resetOnly := true } ∧
    (withLife tLinks { lbist := some { half := 1, under := [0, 65], notRun := [], qp := 0, tag := 0 } }).life.lbist =
      some { half := 1, under := [0, 65], notRun := [], qp := 0, tag := 0 } ∧ (∀ p ∈ [0, 65], p < 66) ∧ [0, 65].Nodup := by decide +kernel
theorem wit_MoltMapIsSound : (List.replicate 64 (some 65)).length = 64 ∧ (List.range 60).Nodup ∧ [60, 65].Nodup ∧
    (∀ p ∈ List.range 60, p ∉ [60, 65]) := by decide +kernel
theorem wit_FuseSlotClasses : ({ data := 0, v := 0 } : FuseSlot).cls 0 = FZ.EMPTY ∧ ({ data := 1, v := 1 } : FuseSlot).valids < 2 ∧
    2 ≤ ({ data := 1, v := 5 } : FuseSlot).valids ∧ ({ data := 1, v := 1 } : FuseSlot).data ≠ 0 := by decide +kernel

/-! ### Premises are met: power, management, licences, the black box -/

def tCl (st : Nat) : State := tReady.fset F.PWR_CLSTAT_STATE 131 0 st
theorem wit_ClusterPowerFollowsItsEvents : tReady.awake = true ∧ (tReady.fget F.PWR_CLSTAT_ODRFAIL 131).testBit 3 = false ∧
    (254 : BitVec 8).toNat < tReady.fget F.PWR_VMIN_CODE 131 3 ∧ tReady.fget F.PWR_VMIN_CODE 131 3 ≤ (255 : BitVec 8).toNat ∧
    Quiet tReady ∧ tReady.ready = true ∧ tReady.locked = false ∧ tRun.locked = true ∧ (tCl CL.THREE).fget F.PWR_CLSTAT_STATE 131 = CL.THREE ∧
    (tCl CL.DARK).fget F.PWR_CLSTAT_STATE 131 ≠ CL.ON ∧ (tCl CL.CHRYSALIS).fget F.PWR_CLSTAT_STATE 131 = CL.CHRYSALIS ∧
    (({ tCl CL.ENTERING with pow := { phases := [(131, 0)] } } : State).pow.phases.any fun p => p.1 = 131 && decide (p.2 ≤ 0)) = true := by
  unfold Quiet; decide +kernel
theorem wit_ClustersLeaveAndRailsTimeOut : (let s : State := { tCl CL.LEAVING with pow := { phases := [(131, 0)] } };
     Quiet s ∧ (s.pow.phases.any fun p => p.1 = 131 && decide (p.2 ≤ s.cc)) = true ∧ s.fget F.PWR_CLSTAT_STATE 131 = CL.LEAVING) ∧
    (railOf 14).1 ≤ (railOf 14).1 ∧ (railOf 1).1 - 1 < (railOf 1).1 ∧
    (let s : State := { tReady with cc := 96001, pow := { rails := [(14, 0, false)] } };
     (s.pow.rails.find? fun p => p.1 = 14) = some (14, 0, false) ∧ 0 + 96000 < s.cc ∧ Quiet s ∧ s.raised = [] ∧ ∀ p ∈ s.pow.rails, p.1 ≠ 1) ∧
    (tReady.thermUnit 135 = some 139 ∧
     smGet (0, 0) (smPuts (0, 0) tReady.pow.snsr ([((139 : Nat), (-100 : Int), (7 : Int))].filter fun p => decide (p.1 < 140))) 139 = (-100, 7)) ∧
    ((2 ^ 64 + 2 ^ 66 : BitVec 128).toNat.testBit 64 = true ∧ (2 ^ 64 + 2 ^ 66 : BitVec 128).toNat.testBit 66 = true ∧
     (2 ^ 64 : BitVec 128).toNat.testBit 66 = false) := by unfold Quiet; decide +kernel
theorem wit_PowerCommandsAct : tReady.awake = true ∧ tReady.life.powerFailed = false ∧ (1 : BitVec 3) ≠ 0 ∧
    tReady.flag F.PWR_SHUT_LATCH = false ∧ Quiet tReady ∧ (0 : BitVec 128).toNat.testBit 64 = false ∧
    ({ tReady with cc := 480000001 } : State).pow.stale = false ∧
    (({ tReady with cc := 480000001 } : State).pow.coolAt).getD 0 + 480000000 < ({ tReady with cc := 480000001 } : State).cc ∧
    ({ tReady with cc := 9600000 } : State).pow.evalAt + 9600000 ≤ ({ tReady with cc := 9600000 } : State).cc ∧ 15 ≤ 15 := by
  unfold Quiet; decide +kernel
theorem wit_ManagementPortAnswers : Quiet tReady ∧ tReady.life.aon = true ∧ tReady.mgmtFull = true ∧ tReady.bbrBusy tReady.mgmt.bbrSel 1 = false ∧
    (7 : BitVec 8).toNat < 8 := by unfold Quiet; decide +kernel
theorem wit_JtagReachesOnlyItsPins : Quiet tReady ∧ tReady.life.aon = true ∧ tReady.life.resetN = true ∧
    (withLife tReady { resetN := false }).life.resetN = false := by unfold Quiet; decide +kernel
def tGrant : State := ((tReady.fset F.LIC_SLOTA_VALID 0 15 1).rset .LIC_SLOTB 0 15 100).rset .LIC_SVCTIME 0 0 100
theorem wit_LicencesAndServiceTime : tQp.hears tHdr.qp = true ∧ Takes tQp tHdr OP.LICENCE_INSTALL GRP_LICENCE false false ∧
    (List.replicate 160 (0 : Byte)).length = 160 ∧ (tQp.taken tHdr).licRefusal (List.replicate 160 0) = some (ST.DESC, LC.FORMAT) ∧
    tGrant.awake = true ∧ tGrant.flag F.LIC_SLOTA_VALID 0 15 = true ∧ tGrant.rget .LIC_SLOTB 0 15 ≠ 0 ∧
    tGrant.rget .LIC_SLOTB 0 15 ≤ tGrant.rget .LIC_SVCTIME ∧ Quiet tReady ∧ tReady.life.aon = true ∧ tReady.life.svcSince < 59 ∧
    59 ≤ (withLife tReady { svcSince := 59 }).life.svcSince := by unfold Takes Quiet; decide +kernel
/-- The licence that the format of R525 lets through, of kind `kind`, with serial number 5. -/
def tLic (kind : Nat) : List Byte := leBytes 160 (0x4C494331 + 2 ^ 32 + kind * 2 ^ 40 + 5 * 2 ^ 128 + (if kind = 1 then 9 * 2 ^ 160 else 7 * 2 ^ 192))
/-- Whether a signature is good is a free value (R527); where it is, the licence passes. -/
theorem wit_LicencesPass (kind : Nat) (hk : kind ≤ 1) (hv : Config.sigValid (tLic kind) = true) :
    (tQp.rset .LIC_UID 0 0 0).licRefusal (tLic kind) = none ∧ (tLic kind).length = 160 ∧ (licOf (tLic kind)).kind = kind ∧
      tGrant.cc = 0 ∧ ({ tGrant with life := { grants := [(15, 0, 7, 100)] } } : State).life.grants = [(15, 0, 7, 100)] := by
  obtain rfl | rfl : kind = 0 ∨ kind = 1 := by omega
  · unfold State.licRefusal; rw [hv]; decide +kernel
  · unfold State.licRefusal; rw [hv]; decide +kernel
def tBbr : State := { tQp with bbr := { cur := some (5, [], false) } }
theorem wit_BlackBoxReadsAndWrites : tQp.hears tHdr.qp = true ∧ Takes tQp tHdr OP.BBR_READ GRP_BBR false false ∧ 16 < (17 : BitVec 8).toNat ∧
    Takes tBbr tHdr OP.BBR_READ GRP_BBR false false ∧ (tBbr.taken tHdr).bbrBusy 5 1 = true ∧ (tQp.taken tHdr).bbrBusy 5 16 = false ∧
    Takes tQp tHdr OP.BBR_ACK GRP_BBR false false ∧ (1 : BitVec 64).toNat ≠ (tQp.taken tHdr).rget .BBR_PENDING ∧
    (3 : BitVec 64).toNat = ((tQp.rset .BBR_PENDING 0 0 3).taken tHdr).rget .BBR_PENDING ∧ 1 < State.reset.bbrOldest + 2 ∧
    Quiet tBbr ∧ tBbr.life.aon = true ∧ tBbr.bbr.cur = some (5, [], false) ∧ tBbr.bbrTarget = some true ∧ (tBbr.bbrDev true).room = true ∧
    tBbr.bbrOk true = true ∧ (({ ahead := 1 } : BbrDev).ahead < 2 ∧ ({ ahead := 1 } : BbrDev).bad.length + 4 < SECTORS) := by
  unfold Takes Quiet; decide +kernel

/-! ### Premises are met: the Cicada pair -/

def tPair (pst mode role : Nat) : State :=
  { (((tReady.fset F.CIC_STAT_PSTATE 0 0 pst).fset F.CIC_STAT_MODE 0 0 mode).fset F.CIC_STAT_ROLE 0 0 role).fset F.CIC_STAT_P6UP 0 0 1 with
    cic := { rxSeq := some 1 } }
def tSeek : State := { tPair PS.SEEKING 1 0 with cc := 96000000, cmds := [Cmd.mk OP.PAIR_MODE 0 7 1 GRP_PAIR 0 [] []] }
def tRec : InRec := { step := 0, entries := [], cond := 0 }
def tStandby : State := { tPair PS.LINKED 1 1 with str := { tRun.str with st := .running }, cic := { recs := [tRec], due := [(0, 4)] } }
theorem wit_PairModeAndStepRecords : tQp.hears tHdr.qp = true ∧ Takes tQp tHdr OP.PAIR_MODE GRP_PAIR false tQp.cic.pending.isSome ∧
    tRunQp.hears tHdr.qp = true ∧ Takes tRunQp tHdr OP.PAIR_MODE GRP_PAIR false tRunQp.cic.pending.isSome ∧
    tSeek.powered = true ∧ tSeek.doing OP.PAIR_MODE = true ∧ tSeek.cic.pending = none ∧ tSeek.cic.seekAt + 96000000 ≤ tSeek.cc ∧
    tStandby.powered = true ∧ tStandby.cic.due = (0, 4) :: [] ∧ 0 ≤ tStandby.cc ∧ tStandby.dueRecord = some tRec ∧
    tStandby.flag F.CIC_STAT_PACED = false := by unfold Takes; decide +kernel
def tBody (mode role : Nat) : PairBody := { mode := mode, role := role, path := 0, divhalt := false, relay := 0, uid := 9, jbuf := 0, jlen := 0 }
def tFeat (s : State) : State := s.fset F.LIC_STAT_INFORCE 0 0 4
theorem wit_PairModeNowOrLater : (tQp.taken tHdr).pairRefusal (tBody 1 0) 0 = some ST.LICENCE ∧ ((tFeat tQp).taken tHdr).pairRefusal (tBody 1 0) 0 = none ∧
    ((tFeat tQp).taken tHdr).pairRefusal (tBody 0 0) 0 = none ∧ ((tFeat tRunQp).taken tHdr).pairRefusal (tBody 1 0) 0 = none ∧
    (((tFeat tRunQp).taken tHdr).dropPair.running = true ∧ (tBody 1 0).mode ≠ ((tFeat tRunQp).taken tHdr).dropPair.cmode) ∧
    ((tFeat tQp).taken tHdr).dropPair.running = false ∧ (tFeat tQp).hears tHdr.qp = true ∧
    Takes (tFeat tQp) tHdr OP.PAIR_MODE GRP_PAIR false (tFeat tQp).cic.pending.isSome ∧ Quiet tSeek ∧
    tSeek.cmdOf OP.PAIR_MODE = some (Cmd.mk OP.PAIR_MODE 0 7 1 GRP_PAIR 0 [] []) := by unfold Takes Quiet; decide +kernel
/-- The hash of step 4 is due; step 4's or no hash of the peer is at hand. -/
def tHash (peer : List (Nat × Nat × Bool)) : State := { tPair PS.LINKED 1 0 with cic := { due := [(0, 4)], peer := peer } }
theorem wit_StepHashesMeet : (∀ h ∈ (tHash [(5, 1, false)]).cic.peer, h.1 ≠ 4) ∧ (tHash []).powered = true ∧ (tHash []).standby = false ∧
    ((tHash [(4, (tHash []).stepHash 4 |>.1, false)]).cic.peer.find? fun h => h.1 = 4) = some (4, ((tHash []).stepHash 4).1, false) ∧
    ((tHash [(4, ((tHash []).stepHash 4).1 + 1, false)]).stepHash 4).1 ≠ ((tHash []).stepHash 4).1 + 1 ∧ (tHash []).cic.own = [] := by decide +kernel
/-- A standby whose journal buffer has 1 MiB; `bytes` of it are taken. -/
def tStage (mode bytes : Nat) : State := let s := (tPair PS.LINKED mode 1).fset F.CIC_JBUF_LEN 0 0 1
  { s with cic := { s.cic with stage := { bytes := bytes, frames := 2, regs := [(1023, [1, 2, 3, 4])] } } }
def tHb : HeartbeatIn := { uid := 9, role := true, mode := 2, pstate := 2, state := 0, bcause := 0, image := 0, mapdig := 0 }
def tFrame (seq : BitVec 32) : FrameHdr := { seq := seq, ackv := false, nak := false, ack := 0, step := 5 }
def seen (s : State) : State := (s.bump F.CIC_FRMCNT_RX 0 0 1).frameAck (tFrame 1)
def tPeer (pst : Nat) : State := (tPair pst 1 0).rset .CIC_PEERUID 0 0 9
theorem wit_HeartbeatsLinkLoseAndBreak : (tPeer PS.SEEKING).cicHears = true ∧ (seen (tPeer PS.SEEKING)).pst = PS.SEEKING ∧
    (seen (tPeer PS.SEEKING)).heartbeatOk tHb = true ∧ (seen (tPeer PS.SEEKING)).heartbeatOk { tHb with uid := 8 } = false ∧
    (tPeer PS.LINKED).cicHears = true ∧ (seen (tPeer PS.LINKED)).pst = PS.LINKED ∧ (seen (tPeer PS.LINKED)).heartbeatOk tHb = true ∧
    tHb.pstate.toNat ≠ PS.BROKEN ∧ (tPeer PS.PEER_LOST).cicHears = true ∧ (seen (tPeer PS.PEER_LOST)).pst = PS.PEER_LOST ∧
    tHb.uid.toNat = (seen (tPeer PS.PEER_LOST)).rget .CIC_PEERUID ∧ (tPeer PS.LINKED).life.aon = true ∧ (tPeer PS.LINKED).powered = true ∧
    ({ tPeer PS.LINKED with cc := 8160 } : State).cic.hbAt + missAt 0 ≤ 8160 ∧ (tPeer PS.LINKED).cic.misses < 4 ∧
    ({ tPeer PS.LINKED with cc := 7200 } : State).cic.hbSent + 7200 ≤ 7200 := by decide +kernel
def withCic (s : State) (c : Cic) : State := { s with cic := c }
theorem wit_StagesHaveRoomOrBreak : (∀ b ∈ [2 ^ 20 - 256, 2 ^ 20 - 255], let w := seen (tStage 2 b)
      (tStage 2 b).cicHears = true ∧ w.cic.rxSeq = some (tFrame 1).seq.toNat ∧ w.pairFlows = true ∧ w.standby = true ∧
      (w.cic.stage.bytes + 256 ≤ w.fget F.CIC_JBUF_LEN * 2 ^ 20 ↔ b = 2 ^ 20 - 256) ∧ w.cic.stage.frames = 2 ∧
      w.cic.stage.regs = [(1023, [1, 2, 3, 4])]) ∧
    (let w := seen { tPair PS.LINKED 1 0 with cic := { rxSeq := some 1, own := [(5, 6, false, false)] } };
     (w.cic.own.find? fun o => o.1 = 5 && !o.2.2.2) = some (5, 6, false, false) ∧ w.cmode = 1 ∧ (∀ o ∈ w.cic.own, o.1 ≠ 4)) := by decide +kernel
theorem wit_PairFramesGoInSequence : (tPair PS.LINKED 1 1).cicHears = true ∧ (seen (tPair PS.LINKED 1 1)).cic.rxSeq ≠ none ∧
    (seen (tPair PS.LINKED 1 1)).cic.rxSeq ≠ some (2 : BitVec 32).toNat ∧ (seen (tPair PS.SEEKING 1 1)).pairFlows = true ∧
    (seen (tPair PS.LINKED 1 1)).flag F.CIC_STAT_PATH = false ∧
    (seen (((tPair PS.LINKED 1 1).fset F.CIC_STAT_PATH 0 0 1).fset F.ECP_QPSTAT_STATE 0 0 2)).flag F.CIC_STAT_PATH = true ∧
    (((tPair PS.LINKED 1 1).fset F.CIC_STAT_PATH 0 0 1).fset F.ECP_QPSTAT_STATE 0 0 2).cicHears = true ∧
    (seen (tPair PS.LINKED 1 1)).cic.rxSeq = some (tFrame 1).seq.toNat ∧ (seen (tPair PS.LINKED 1 1)).pairFlows = true ∧ (seen (tPair PS.LINKED 1 1)).pst = PS.LINKED ∧
    (seen (tPair PS.LINKED 1 1)).standby = true ∧ (seen (tPair PS.LINKED 1 1)).cmode = 1 ∧ (seen (tPair PS.LINKED 2 1)).cmode ≠ 1 ∧
    (seen (tPair PS.LINKED 1 1)).cic.partStep = none ∧ (seen (tPair PS.LINKED 1 1)).cic.part.length = (0 : BitVec 16).toNat ∧
    (seen (tPair PS.LINKED 1 1)).cic.recs.length < 64 ∧ (seen (tPair PS.LINKED 1 1)).cic.stage.frames = (0 : BitVec 64).toNat ∧
    (seen (tPair PS.LINKED 1 1)).cic.stage.frames ≠ (1 : BitVec 64).toNat := by decide +kernel

/-! ### One step of a command; the expected values are those of the rule named -/

def after (c : Instr) (s : State) : State := match exec c s with
  | .next t => t
  | _ => State.reset

/-- R574. -/
theorem test_idcode : (after .idcode tReady).life.jtagOut = 0x1A102A5F := by decide +kernel
/-- R576: a device out of reset treats EXTEST as BYPASS. -/
theorem test_extest_bypasses : (after (.extest 0 0x8001) tReady).life.jtagCells = tReady.life.jtagCells := by decide +kernel
/-- R426, R424: MINSEV of the session, and the ACK with its tag. -/
theorem test_event_cfg : (after (.eventCfg tHdr 3) tQp).fget F.ECP_SESSION_MINSEV 0 = 3 ∧
    ((after (.eventCfg tHdr 3) tQp).qp 0).sendq.map (fun m => (m.tag, m.status, m.done)) = [(1, 0, true)] := by decide +kernel
/-- R421: a command of another session is ST_AUTH at its ACK. -/
theorem test_other_session : ((after (.eventCfg { tHdr with session := 8 } 3) tQp).qp 0).sendq.map (·.status) = [ST.AUTH] ∧
    (after (.eventCfg { tHdr with session := 8 } 3) tQp).fget F.ECP_SESSION_MINSEV 0 = tQp.fget F.ECP_SESSION_MINSEV 0 := by decide +kernel
/-- R526. -/
theorem test_svctime : (after .svctimeTick tReady).rget .LIC_SVCTIME = 1 := by decide +kernel
/-- R407: priorities 0 and 4 are enabled, only 4 has a time. -/
theorem test_pfc : (after (.pfcFrame 7 0x11 0x10) tPort).fget F.ETH_STAT_PFCRX 7 = 0x10 := by decide +kernel
/-- R410: the first connection is queue pair 0, on the port it came from. -/
theorem test_cm_req : (after (.cmReq 7 { rqpn := 5, gid := 0, mtu := 0, ackTimeout := 14, retryCount := 7, rnrRetry := 7 }) tPort).fget
    F.ECP_QPSTAT_PORT 0 = 7 := by decide +kernel
/-- R103: a step of N = 2 lets 24 bundles execute. -/
theorem test_debug_step : (after (.debugStep 2) tDebug).stall.debugLeft = some 24 := by decide +kernel
/-- R96, R97. -/
theorem test_freeze : (after .freezeBegin tFrzDue).str.st = .stalled ∧ (after .freezeBegin tFrzDue).str.scnt = tFrzDue.str.scnt := by decide +kernel
/-- R98: the freeze of chapter 02's example lifts after 84 stall cycles. -/
theorem test_freeze_lift : (after .freezeLift tLift).str.st = .running ∧ (after .freezeLift tLift).stall.reqs = [] := by decide +kernel
/-- R181: chapter 04's example takes row 17 out. -/
theorem test_rowmap : (after (.arrRowmapWrite 301 0x7F91) tReady).rget .ARR_ROWMAP 301 = 0x7F91 ∧
    (after (.arrRowmapWrite 301 0x9191) tReady).rget .ARR_ROWMAP 301 = tReady.rget .ARR_ROWMAP 301 := by decide +kernel
/-- R480: 20 µs are 19,200 cycles. -/
theorem test_chrysalis : (after (.chrysalisEnter 131) tReady).pow.phases = [(131, 19200)] := by decide +kernel
/-- R505: the phases in order. -/
theorem test_bringup : (after (.bringup false) State.reset).phase = 1 := by decide +kernel
/-- R432: without owner presence the key stays. -/
theorem test_key : (after (.keySet 1 false true) tReady).mgmt.key = none ∧ (after (.keySet 1 false true) tReady).mgmt.status = ST.PRESENCE := by
  decide +kernel
/-- R492: TELEM answers 64 bytes. -/
theorem test_telem : (after .telem tReady).mgmt.reply.length = 64 := by decide +kernel
/-- R399: a module whose flits agree is ACTIVE. -/
theorem test_link_active : (after (.widthchkFlit 15 1 2) (tCheck [0])).itlState 15 = LK.ACTIVE := by decide +kernel
/-- R451, R444. -/
theorem test_heartbeat : (after (.heartbeat (tFrame 1) tHb) (tPeer PS.SEEKING)).pst = PS.LINKED := by decide +kernel
/-- R388, R100: with both lanes of a direction lost the stream is FAULTED. -/
theorem test_stall_lanes : (after (.stallLaneFrame 0 1 1) tRun).str.st = .faulted := by decide +kernel
/-- R93: an entry becomes present at its SCNT. -/
theorem test_mailbox : smGet false (after (.mailboxPresent 3) tMbx).str.present 3 = true := by decide +kernel
/-- R19 in a command: the write is dropped and logged. -/
theorem test_absent_write : (after (.registerWrite 0x7F0000FFFFF8 1) tReady).rget .SYS_ERRADDR = 0x7F0000FFFFF8 := by decide +kernel
/-- The rows of the opcode table have no bits. -/
theorem test_no_words : decodeTableWord 16 0 = none ∧ tReady.withFetchWord 16 0 = tReady := by decide +kernel
/-- An empty queue idles (log entry 3); a waiting command runs and leaves the queue. -/
theorem test_step : (match step { tReady with pending := [.svctimeTick, .telem] } with
    | .next t => decide (t.pending = [.telem] ∧ t.rget .LIC_SVCTIME = 1)
    | _ => false) = true := by decide +kernel

end Sys2Proof.Tests
end

section
/-! What a sparse map and memory read after a store, and that a canonical map is determined by its reads (O6). -/
namespace Sys2Proof.Machine

section Maps

variable {α : Type} [DecidableEq α]

/-- In canonical form a key below the lowest one listed reads as the default. -/
theorem smGet_of_lt_wf (d : α) (m : List (Nat × α)) : ∀ {lo x : Nat}, smWf d lo m = true → x < lo → smGet d m x = d := by
  induction m with
  | nil => intros; rfl
  | cons p m ih =>
    obtain ⟨k, v⟩ := p
    intro lo x h hx
    simp only [smWf, Bool.and_eq_true, decide_eq_true_eq] at h
    rw [smGet, if_neg (by omega)]
    exact ih h.2 (by omega)

/-- The first entry of a canonical map is read at its key and is not the default. -/
theorem smWf_head (d : α) (k : Nat) (v : α) (m : List (Nat × α)) {lo : Nat} (h : smWf d lo ((k, v) :: m) = true) :
    lo ≤ k ∧ smGet d ((k, v) :: m) k = v ∧ v ≠ d ∧ smWf d (k + 1) m = true := by
  simp only [smWf, Bool.and_eq_true, decide_eq_true_eq] at h
  exact ⟨h.1.1, by simp [smGet], h.1.2, h.2⟩

/-- Two canonical maps that read alike list the same entries. -/
theorem eq_of_smGet_eq (d : α) (m : List (Nat × α)) : ∀ {lo : Nat} {m' : List (Nat × α)}, smWf d lo m = true → smWf d lo m' = true →
    (∀ x, smGet d m x = smGet d m' x) → m = m' := by
  induction m with
  | nil =>
    intro lo m' _ h' he
    cases m' with
    | nil => rfl
    | cons q m' =>
      obtain ⟨_, hv, hne, _⟩ := smWf_head d q.1 q.2 m' h'
      exact absurd (hv.symm.trans (he q.1).symm) hne
  | cons p m ih =>
    intro lo m' h h' he
    obtain ⟨k, v⟩ := p
    obtain ⟨_, hv, hne, hm⟩ := smWf_head d k v m h
    cases m' with
    | nil => exact absurd (hv.symm.trans (he k)) hne
    | cons q m' =>
      obtain ⟨k', v'⟩ := q
      obtain ⟨_, hv', hne', hm'⟩ := smWf_head d k' v' m' h'
      have hkk : k = k' := by
        rcases Nat.lt_trichotomy k k' with hlt | heq | hgt
        · have : smGet d ((k', v') :: m') k = d := by rw [smGet, if_neg (by omega)]; exact smGet_of_lt_wf d m' hm' (by omega)
          exact absurd (hv.symm.trans ((he k).trans this)) hne
        · exact heq
        · have : smGet d ((k, v) :: m) k' = d := by rw [smGet, if_neg (by omega)]; exact smGet_of_lt_wf d m hm (by omega)
          exact absurd (hv'.symm.trans ((he k').symm.trans this)) hne'
      subst hkk
      have hvv : v = v' := hv.symm.trans ((he k).trans hv')
      subst hvv
      congr 1
      refine ih hm hm' fun x => ?_
      by_cases hx : x = k
      · rw [hx, smGet_of_lt_wf d m hm (by omega), smGet_of_lt_wf d m' hm' (by omega)]
      · simpa [smGet, hx] using he x

/-- Several writes leave every key that none of them names as it was. -/
theorem smGet_smPuts_ne (d : α) (xs : List (Nat × α)) {x : Nat} :
    ∀ m : List (Nat × α), (∀ p ∈ xs, x ≠ p.1) → smGet d (smPuts d m xs) x = smGet d m x := by
  induction xs with
  | nil => intros; rfl
  | cons p xs ih =>
    intro m h
    exact (ih _ fun q hq => h q (by simp [hq])).trans (smGet_smPut_ne d d m (h p (by simp)) p.2)

/-- Values written at consecutive keys read back one by one. -/
theorem smGet_smPuts_zipIdx (d : α) (a : Nat) (bs : List α) : ∀ (n : Nat) (m : List (Nat × α)) (i : Nat) (h : i < bs.length),
    smGet d (smPuts d m ((bs.zipIdx n).map fun p => (a + p.2, p.1))) (a + n + i) = bs[i] := by
  induction bs with
  | nil => intro n m i h; simp at h
  | cons b bs ih =>
    intro n m i h
    cases i with
    | zero =>
      refine (smGet_smPuts_ne d _ (smPut d m (a + n) b) fun p hp => ?_).trans (smGet_smPut_same d m (a + n) b)
      obtain ⟨q, hq, rfl⟩ := List.mem_map.mp hp
      have := List.le_snd_of_mem_zipIdx hq
      dsimp only
      omega
    | succ i =>
      have := ih (n + 1) (smPut d m (a + n) b) i (by simpa using h)
      rwa [show a + (n + 1) + i = a + n + (i + 1) by omega] at this

end Maps

theorem undefOf_cons (u : Nat × Nat × Nat) (us : List (Nat × Nat × Nat)) (x : Nat) :
    undefOf (u :: us) x = if u.1 ≤ x ∧ x < u.2.1 then some u.2.2 else undefOf us x := by
  unfold undefOf
  by_cases h : u.1 ≤ x ∧ x < u.2.1
  · simp [h]
  · rw [if_neg h, List.find?_cons_of_neg (by simpa using h)]

/-- What a range that was undefined still is after a write of `a` up to `b`: nothing inside, as before outside. -/
theorem undefOf_undefCut (a b x : Nat) (us : List (Nat × Nat × Nat)) :
    undefOf (undefCut us a b) x = if a ≤ x ∧ x < b then none else undefOf us x := by
  induction us with
  | nil => simp [undefCut, undefOf]
  | cons u us ih =>
    have hcut : undefCut (u :: us) a b = (if b ≤ u.1 ∨ u.2.1 ≤ a then [u]
      else (if u.1 < a then [(u.1, a, u.2.2)] else []) ++ (if b < u.2.1 then [(b, u.2.1, u.2.2)] else [])) ++ undefCut us a b := rfl
    rw [hcut]
    by_cases hout : b ≤ u.1 ∨ u.2.1 ≤ a
    · rw [if_pos hout, List.singleton_append, undefOf_cons, undefOf_cons, ih]
      grind
    · rw [if_neg hout]
      by_cases hlow : u.1 < a <;> by_cases hhigh : b < u.2.1 <;>
        simp only [hlow, hhigh, if_true, if_false, List.cons_append, List.nil_append, undefOf_cons, ih] <;> grind

namespace State

/-- A stored byte reads back. -/
theorem byte_putBytes_in (s : State) (a : Nat) (bs : List Byte) (i : Nat) (h : i < bs.length) :
    (s.putBytes a bs).byte (a + i) = bs[i] := by
  have hu : undefOf (s.putBytes a bs).undef (a + i) = none :=
    (undefOf_undefCut _ _ _ s.undef).trans (if_pos ⟨by omega, by omega⟩)
  unfold byte
  rw [hu]
  exact smGet_smPuts_zipIdx 0 a bs 0 s.mem i h

/-- A byte outside the range stored reads as before. -/
theorem byte_putBytes_out (s : State) (a : Nat) (bs : List Byte) (x : Nat) (h : x < a ∨ a + bs.length ≤ x) :
    (s.putBytes a bs).byte x = s.byte x := by
  have hu : undefOf (s.putBytes a bs).undef x = undefOf s.undef x :=
    (undefOf_undefCut _ _ _ s.undef).trans (if_neg (by omega))
  have hm : smGet 0 (s.putBytes a bs).mem x = smGet 0 s.mem x := by
    refine smGet_smPuts_ne 0 _ _ fun p hp => ?_
    obtain ⟨q, hq, rfl⟩ := List.mem_map.mp hp
    have := List.snd_lt_of_mem_zipIdx hq
    dsimp only
    omega
  unfold byte
  rw [hu, hm]

end State

/-- Settles O6: a store writes its bytes at consecutive keys and ends what was undefined there; a canonical map is determined by its
reads. -/
theorem memoryReadsBackWhatIsStored : Obligations.MemoryReadsBackWhatIsStored :=
  ⟨fun s a bs => ⟨s.byte_putBytes_in a bs, s.byte_putBytes_out a bs⟩, fun m _ h h' he => eq_of_smGet_eq 0 m h h' he⟩

end Sys2Proof.Machine
end

section
/-! The regions of the address space (O7). -/
namespace Sys2Proof.Machine

theorem placeOf_vaultAddr {n c x : Nat} (hn : n < 1024) (hc : c < 4) (hx : x < 0x2000000) : placeOf (vaultAddr n c x) = .vault n c x := by
  unfold placeOf vaultAddr
  rw [if_pos (by omega), show (n * 0x8000000 + c * 0x2000000 + x) / 0x8000000 = n by omega,
    show (n * 0x8000000 + c * 0x2000000 + x) / 0x2000000 % 4 = c by omega, show (n * 0x8000000 + c * 0x2000000 + x) % 0x2000000 = x by omega]

theorem placeOf_scratchAddr {n x : Nat} (hn : n < 1024) (hx : x < 0x200000) : placeOf (scratchAddr n x) = .scratch n x := by
  unfold placeOf scratchAddr
  rw [if_neg (by omega), if_pos (by omega), show (0x4000000000 + n * 0x200000 + x - 0x4000000000) / 0x200000 = n by omega,
    show (0x4000000000 + n * 0x200000 + x) % 0x200000 = x by omega]

theorem placeOf_sideAddr {k c x : Nat} (hk : k < 8) (hc : c < 32) (hx : x < 0x80000000) : placeOf (sideAddr k c x) = .side k c x := by
  unfold placeOf sideAddr
  rw [if_neg (by omega), if_neg (by omega), if_pos (by omega),
    show (0x10000000000 + k * 0x1000000000 + c * 0x80000000 + x - 0x10000000000) / 0x1000000000 = k by omega,
    show (0x10000000000 + k * 0x1000000000 + c * 0x80000000 + x) / 0x80000000 % 32 = c by omega,
    show (0x10000000000 + k * 0x1000000000 + c * 0x80000000 + x) % 0x80000000 = x by omega]

theorem placeOf_blockAddr {b x : Nat} (hb : b < 22) (hx : x < 0x10000000) : placeOf (blockAddr b x) = .reg b x := by
  unfold placeOf blockAddr
  rw [if_neg (by omega), if_neg (by omega), if_neg (by omega), if_pos (by omega),
    show (0x7F0000000000 + b * 0x10000000 + x - 0x7F0000000000) / 0x10000000 = b by omega,
    show (0x7F0000000000 + b * 0x10000000 + x) % 0x10000000 = x by omega]

/-- R12: between the regions and beyond them there is nothing. -/
theorem placeOf_gap {a : Nat} (h1 : 0x2000000000 ≤ a) (h2 : a < 0x4000000000 ∨ 0x4080000000 ≤ a)
    (h3 : a < 0x10000000000 ∨ 0x18000000000 ≤ a) (h4 : a < 0x7F0000000000 ∨ 0x7F0160000000 ≤ a) : placeOf a = .nowhere := by
  unfold placeOf
  rw [if_neg (by omega), if_neg (by omega), if_neg (by omega), if_neg (by omega)]

namespace State

theorem present_scratch (s : State) (n x : Nat) : s.present (.scratch n x) = (decide (x < 0x180000) && !s.failed n) := rfl

theorem present_side (s : State) (k c x : Nat) :
    s.present (.side k c x) = (decide (s.sskState k c = CH.ONLINE) && (!decide (k < 4) || decide (x < 0x60000000))) := rfl

/-- R12: of a core's scratch window only the lower 1.5 MiB are there. -/
theorem present_scratch_high (s : State) (n x : Nat) (h : 0x180000 ≤ x) : s.present (.scratch n x) = false := by
  rw [present_scratch, decide_eq_false (Nat.not_lt.mpr h), Bool.false_and]

/-- R13: the channels of the four Scarab stacks hold 1.5 GiB. -/
theorem present_side_high (s : State) (k c x : Nat) (hk : k < 4) (h : 0x60000000 ≤ x) : s.present (.side k c x) = false := by
  rw [present_side, decide_eq_true hk, decide_eq_false (Nat.not_lt.mpr h), Bool.not_true, Bool.false_or, Bool.and_false]

theorem present_side_online (s : State) (k c x : Nat) (ho : s.sskState k c = CH.ONLINE) (h : 4 ≤ k ∨ x < 0x60000000) :
    s.present (.side k c x) = true := by
  rw [present_side, decide_eq_true ho, Bool.true_and]
  rcases h with h | h
  · rw [decide_eq_false (Nat.not_lt.mpr h), Bool.not_false, Bool.true_or]
  · rw [decide_eq_true h, Bool.or_true]

end State

/-- Settles O7: each region by its own arithmetic, and what is absent by the place found. -/
theorem regionsAreLaidOut : Obligations.RegionsAreLaidOut := by
  intro s
  refine ⟨fun n c x => placeOf_vaultAddr, fun n x hn hx => ⟨placeOf_scratchAddr hn hx, s.present_scratch_high n x⟩,
    fun k c x hk hc hx => ⟨placeOf_sideAddr hk hc hx, s.present_side_high k c x, s.present_side_online k c x⟩,
    fun b x => placeOf_blockAddr, fun a h1 h2 h3 h4 => ?_⟩
  rw [placeOf_gap h1 h2 h3 h4]
  rfl

end Sys2Proof.Machine
end

section
/-! What writes of registers leave as it was, and the first-error record of the system controller (O8). -/
namespace Sys2Proof.Machine

/-! ### The registers a change keeps -/

theorem RegsKept.refl (s : State) (as : List Nat) : RegsKept s s as := fun _ _ _ _ _ => rfl

theorem RegsKept.trans {s t u : State} {as : List Nat} (h : RegsKept s t as) (h' : RegsKept t u as) : RegsKept s u as :=
  fun r i k ha hr => (h' r i k ha hr).trans (h r i k ha hr)

theorem regsKept_of_regs_eq {s t u : State} {as : List Nat} (h : RegsKept s t as) (hu : u.regs = t.regs) : RegsKept s u as := by
  intro r i k ha hr
  rw [← h r i k ha hr]
  unfold State.rget
  rw [hu]

theorem regsKept_rset (s : State) (r : Reg) (i k v : Nat) {as : List Nat} (h : r.addr i k ∈ as) : RegsKept s (s.rset r i k v) as :=
  fun r' i' k' ha _ => s.rget_rset_ne r r' i k v i' k' fun e => ha (by rw [e]; exact h)

namespace State

/-- A register reads from the register map alone. -/
theorem rget_congr {s t : State} (h : t.regs = s.regs) (r : Reg) (i k : Nat) : t.rget r i k = s.rget r i k := by
  unfold rget
  rw [h]

theorem fget_congr {s t : State} (h : t.regs = s.regs) (f : Fld) (i k : Nat) : t.fget f i k = s.fget f i k := by
  unfold fget
  rw [rget_congr h]

/-! ### First-error records -/

/-- An error that reaches a record changes registers and its marks only. -/
theorem firstErr_frame (s : State) (ar sr cr : Reg) (i a v : Nat) :
    ∃ r w e, s.firstErr ar sr cr i a v = { s with regs := r, w1c := w, errNow := e } := by
  unfold firstErr
  dsimp only
  generalize (if ar = .ARR_ERRSCNT then a else a % 2 ^ 48) = a
  split
  · exact ⟨_, _, _, rfl⟩
  · split <;> exact ⟨_, _, _, rfl⟩

theorem flag_bit0 (s : State) (r : Reg) (i k : Nat) : s.flag ⟨r, 0, 0⟩ i k = decide (s.rget r i k % 2 = 1) := by
  simp [flag, fget, bits]

/-- R535: an empty record takes the error. -/
theorem errSYS_regs_of_empty (s : State) (a st c : Nat) (h : s.flag F.SYS_ERRSTAT_VALID = false) :
    (s.errSYS a st c).regs = ((s.rset .SYS_ERRADDR 0 0 (a % 2 ^ 48)).rset .SYS_ERRSTAT 0 0 (errStat st c + 1)).regs := by
  rw [flag_bit0, decide_eq_false_iff_not] at h
  have h0 : (s.errLatch (Reg.addr .SYS_ERRSTAT 0 0) (a % 2 ^ 48) (errStat st c)).rget .SYS_ERRSTAT 0 % 2 = 0 := by
    rw [rget_congr (errLatch_regs ..)]; omega
  unfold errSYS firstErr
  dsimp only
  rw [if_neg (by decide : ¬ Reg.SYS_ERRADDR = .ARR_ERRSCNT), if_pos h0]
  rfl

/-- R535: a record that holds an error of an earlier command counts the error. -/
theorem errSYS_regs_of_valid (s : State) (a st c : Nat) (h : s.flag F.SYS_ERRSTAT_VALID = true) (he : s.errNow = []) :
    (s.errSYS a st c).regs = (s.rset .SYS_ERRCNT 0 0 (min (s.rget .SYS_ERRCNT + 1) (2 ^ 64 - 1))).regs := by
  rw [flag_bit0, decide_eq_true_eq] at h
  have h0 : ¬ (s.errLatch (Reg.addr .SYS_ERRSTAT 0 0) (a % 2 ^ 48) (errStat st c)).rget .SYS_ERRSTAT 0 % 2 = 0 := by
    rw [rget_congr (errLatch_regs ..)]; omega
  unfold errSYS firstErr
  dsimp only
  rw [if_neg (by decide : ¬ Reg.SYS_ERRADDR = .ARR_ERRSCNT), if_neg h0, if_neg (by simp [he])]
  rfl

/-! ### An offset that holds no register (R19) -/

/-- What a write does at an address of register space that holds nothing. -/
theorem regWrite_nothing (s : State) {a : Nat} (v : Nat) (h : regAt a = .nothing) : s.regWrite a v = (ST.ABSENT, s.errSYS a ST.ABSENT 2) := by
  unfold regWrite
  rw [h]

/-- A read there has the same effect and answers a free value. -/
theorem regRead_nothing (s : State) {a : Nat} (h : regAt a = .nothing) :
    (s.regRead a).2 = (ST.ABSENT, { s.errSYS a ST.ABSENT 2 with free := s.free + 1 }) := by
  have hf : (s.errSYS a ST.ABSENT 2).free = s.free := firstErr_free ..
  unfold regRead
  rw [h, ← hf]
  rfl

end State

/-- Settles O8: a read and a write have the effect of one error at SYS, which an empty record takes and another counts. -/
theorem emptyRegisterOffsetsAreAbsent : Obligations.EmptyRegisterOffsetsAreAbsent := by
  intro s a v _ hhi _ hn
  refine ⟨by rw [s.regRead_nothing hn], by rw [s.regWrite_nothing v hn], fun t ht => ?_⟩
  obtain ⟨f, ht⟩ : ∃ f, t = { s.errSYS a ST.ABSENT 2 with free := f } := by
    rcases ht with rfl | rfl
    · exact ⟨_, by rw [s.regRead_nothing hn]⟩
    · exact ⟨_, by rw [s.regWrite_nothing v hn]⟩
  have htr : t.regs = (s.errSYS a ST.ABSENT 2).regs := by rw [ht]
  refine ⟨fun he => ?_, fun hv hq => ?_, ?_⟩
  · have hr := htr.trans (s.errSYS_regs_of_empty a ST.ABSENT 2 he)
    refine ⟨?_, ?_, ?_⟩
    · rw [State.rget_congr hr, State.rget_rset_ne _ _ _ _ _ _ _ _ (by decide), State.rget_rset_same]
      omega
    · rw [State.flag_bit0, State.rget_congr hr, State.rget_rset_same]
      decide
    · exact regsKept_of_regs_eq ((regsKept_rset s _ _ _ _ (by simp)).trans (regsKept_rset _ _ _ _ _ (by simp))) hr
  · have hr := htr.trans (s.errSYS_regs_of_valid a ST.ABSENT 2 hv hq)
    refine ⟨?_, regsKept_of_regs_eq (regsKept_rset s _ _ _ _ (by simp)) hr⟩
    rw [State.rget_congr hr, State.rget_rset_same]
    omega
  · obtain ⟨r, w, e, h⟩ := s.firstErr_frame .SYS_ERRADDR .SYS_ERRSTAT .SYS_ERRCNT 0 a (errStat ST.ABSENT 2)
    rw [ht, State.errSYS, h]

end Sys2Proof.Machine
end

section
/-! Writes that change registers only, and the clears of records and counters (O44). -/
namespace Sys2Proof.Machine

namespace State

/-- `t` is `s` but for registers, and of those only the ones at `as` read otherwise. -/
def Wrote (s t : State) (as : List Nat) : Prop := t = { s with regs := t.regs } ∧ RegsKept s t as

theorem Wrote.refl (s : State) (as : List Nat) : s.Wrote s as := ⟨rfl, RegsKept.refl s as⟩

theorem Wrote.trans {s t u : State} {as : List Nat} (h : s.Wrote t as) (h' : t.Wrote u as) : s.Wrote u as :=
  ⟨by rw [h'.1, h.1], h.2.trans h'.2⟩

theorem wrote_rset (s : State) (r : Reg) (i k v : Nat) {as : List Nat} (h : r.addr i k ∈ as) : s.Wrote (s.rset r i k v) as :=
  ⟨rfl, regsKept_rset s r i k v h⟩

theorem wrote_foldl {β : Type} {as : List Nat} (f : State → β → State) (l : List β)
    (h : ∀ s : State, ∀ b ∈ l, s.Wrote (f s b) as) (s : State) : s.Wrote (l.foldl f s) as :=
  List.foldlRecOn (motive := fun t => s.Wrote t as) l f (Wrote.refl s as) fun t ht b hb => ht.trans (h t b hb)

/-- A change that raises no event and leaves no error mark is the whole change of a quiet block. -/
theorem finish_eq_self {s t : State} (hq : Quiet s) (hr : t.raised = s.raised) (hc : t.cc = s.cc) (he : t.errNow = s.errNow)
    (hp : t.pending = s.pending) : s.finish t = t := by
  rw [finish_quiet s t (quiet_congr hq hr hc he), ← hp]

theorem Wrote.finish_eq {s t : State} {as : List Nat} (h : s.Wrote t as) (hq : Quiet s) : s.finish t = t := by
  obtain ⟨e, _⟩ := h
  exact finish_eq_self hq (by rw [e]) (by rw [e]) (by rw [e]) (by rw [e])

/-- What a step for `b` brings about and the other steps keep holds for every `b` after a fold. -/
theorem foldl_establishes {β : Type} (P : β → State → Prop) (f : State → β → State) (l : List β) :
    (∀ s : State, ∀ b ∈ l, P b (f s b)) →
    (∀ s : State, ∀ b ∈ l, ∀ c ∈ l, P b s → P b (f s c)) → ∀ s : State, ∀ b ∈ l, P b (l.foldl f s) := by
  induction l with
  | nil => simp
  | cons c l ih =>
    intro hset hkeep s b hb
    rcases List.mem_cons.mp hb with rfl | hb'
    · exact List.foldlRecOn (motive := P b) l f (hset s b hb) fun t ht c hc => hkeep t b hb c (by simp [hc]) ht
    · exact ih (fun s b hb => hset s b (by simp [hb])) (fun s b hb c hc => hkeep s b (by simp [hb]) c (by simp [hc])) _ b hb'

/-- Several registers at different addresses all read as they were written. -/
theorem rget_foldl_rset (f : Reg → Nat) (i k : Nat) (l : List Reg)
    (hp : ∀ x ∈ l, ∀ y ∈ l, x ≠ y → x.addr i k ≠ y.addr i k) (s : State) :
    ∀ x ∈ l, (l.foldl (fun s x => s.rset x i k (f x)) s).rget x i k = f x % 2 ^ 64 := by
  refine foldl_establishes (fun x t => t.rget x i k = f x % 2 ^ 64) _ l (fun t x _ => rget_rset_same ..) (fun t x hx y hy ht => ?_) s
  by_cases hxy : x = y
  · rw [hxy]; exact rget_rset_same ..
  · exact (rget_rset_ne _ _ _ _ _ _ _ _ (hp x hx y hy hxy)).trans ht

end State

/-! ### Where an address leads -/

/-- R16: the index found is one that the register has. -/
theorem regOf_index_lt {blk off k : Nat} {g : Bool} {r : Reg} (h : regOf blk g off = some (r, k)) : k < r.info.cnt := by
  obtain ⟨x, _, hx⟩ := List.exists_of_findSome?_eq_some h
  dsimp only at hx
  split at hx
  · next hc =>
    cases hx
    exact hc.2.2.2
  · cases hx

theorem regAt_index_lt {a i k : Nat} {r : Reg} (h : regAt a = .reg r i k) : k < r.info.cnt := by
  unfold regAt at h
  dsimp only at h
  repeat' split at h
  all_goals try cases h
  all_goals rename_i hr
  · exact regOf_index_lt hr
  · split at hr
    · exact regOf_index_lt hr
    · cases hr

/-! ### Records (R21, R22, R535) -/

/-- Two registers that a block lists side by side. -/
def Reg.Beside (x y : Reg) : Prop :=
  x.info.blk = y.info.blk ∧ x.info.glob = y.info.glob ∧ x.info.stride = y.info.stride ∧ x.info.off ≠ y.info.off

theorem Reg.Beside.addr_ne {x y : Reg} (h : x.Beside y) (i k : Nat) : x.addr i k ≠ y.addr i k := by
  obtain ⟨hb, hg, hs, ho⟩ := h
  unfold Reg.addr
  rw [hb, hg, hs]
  omega

/-- The registers of a record lie side by side; they are different ones, and a first-error record has one index only. -/
theorem recordOf_layout {r : Reg} {b : Nat} {rs : List Reg} (h : recordOf r = some (b, rs)) :
    (rs.length = 3 → r.info.cnt = 1) ∧ rs.Nodup ∧ ∀ x ∈ rs, ∀ y ∈ rs, x ≠ y → x.Beside y := by
  unfold recordOf at h
  split at h <;> cases h <;> unfold Reg.Beside <;> decide


namespace State

/-- What goes with the divergence log: the three registers beside its VALID bit. -/
def clearDivlog (s : State) (r : Reg) : State :=
  if r = .CIC_DIVLOG3 then ((s.rset .CIC_DIVLOG0 0 0 0).rset .CIC_DIVLOG1 0 0 0).rset .CIC_DIVLOG2 0 0 0 else s

/-- A record whose VALID bit the device has not just set returns to its reset values. -/
theorem recordClear_unmarked (s : State) {r : Reg} (i k : Nat) {b : Nat} {rs : List Reg} (h : recordOf r = some (b, rs))
    (hm : (s.w1cNow (r.addr i k)).bits = 0) :
    s.recordClear r i k = (rs.foldl (fun s x => s.rset x i k x.info.reset) s).clearDivlog r := by
  unfold recordClear
  rw [h]
  dsimp only
  rw [if_neg fun h => h hm]
  rfl

/-- R22: a first-error record that the device has just set holds the error of this SCLK cycle. -/
theorem recordClear_marked_first (s : State) {r : Reg} (i k : Nat) {b : Nat} {ar sr cr : Reg} (h : recordOf r = some (b, [ar, sr, cr]))
    (hm : (s.w1cNow (r.addr i k)).bits ≠ 0) :
    s.recordClear r i k = ((s.rset ar i 0 (s.w1cNow (r.addr i k)).addr).rset sr i 0 ((s.w1cNow (r.addr i k)).stat + 1)).rset cr i 0
      (s.w1cNow (r.addr i k)).more := by
  unfold recordClear
  rw [h]
  dsimp only
  rw [if_pos hm]

/-- R22: another record that the device has just set stays. -/
theorem recordClear_marked_other (s : State) {r : Reg} (i k : Nat) {b : Nat} {rs : List Reg} (h : recordOf r = some (b, rs))
    (hl : rs.length ≠ 3) (hm : (s.w1cNow (r.addr i k)).bits ≠ 0) : s.recordClear r i k = s := by
  unfold recordClear
  rw [h]
  dsimp only
  rw [if_pos hm]
  split
  · exact absurd rfl hl
  · rfl

/-- The registers that clearing a record may write. -/
def recordAddrs (rs : List Reg) (i k : Nat) : List Nat :=
  Reg.addr .CIC_DIVLOG0 0 0 :: Reg.addr .CIC_DIVLOG1 0 0 :: Reg.addr .CIC_DIVLOG2 0 0 :: rs.map fun x => x.addr i k

theorem mem_recordAddrs {rs : List Reg} {x : Reg} (h : x ∈ rs) (i k : Nat) : x.addr i k ∈ recordAddrs rs i k := by
  simp only [recordAddrs, List.mem_cons]
  exact .inr (.inr (.inr (List.mem_map_of_mem h)))

theorem wrote_clearDivlog (s : State) (r : Reg) (rs : List Reg) (i k : Nat) : s.Wrote (s.clearDivlog r) (recordAddrs rs i k) := by
  unfold clearDivlog
  split
  · exact ((wrote_rset s _ _ _ _ (by simp [recordAddrs])).trans (wrote_rset _ _ _ _ _ (by simp [recordAddrs]))).trans
      (wrote_rset _ _ _ _ _ (by simp [recordAddrs]))
  · exact Wrote.refl s _

theorem divlog3_addr_ne (i k : Nat) : Reg.addr .CIC_DIVLOG3 i k ≠ Reg.addr .CIC_DIVLOG0 0 0 ∧
    Reg.addr .CIC_DIVLOG3 i k ≠ Reg.addr .CIC_DIVLOG1 0 0 ∧ Reg.addr .CIC_DIVLOG3 i k ≠ Reg.addr .CIC_DIVLOG2 0 0 := by
  rw [Reg.addr_global .CIC_DIVLOG3 8 0x58 8 rfl rfl rfl rfl, Reg.addr_global .CIC_DIVLOG0 8 0x40 8 rfl rfl rfl rfl,
    Reg.addr_global .CIC_DIVLOG1 8 0x48 8 rfl rfl rfl rfl, Reg.addr_global .CIC_DIVLOG2 8 0x50 8 rfl rfl rfl rfl]
  omega

/-- The rest of the divergence log lies beside every register that a record clears. -/
theorem rget_clearDivlog (s : State) {r : Reg} {b : Nat} {rs : List Reg} (h : recordOf r = some (b, rs)) {x : Reg} (hx : x ∈ rs) (i k : Nat) :
    (s.clearDivlog r).rget x i k = s.rget x i k := by
  unfold clearDivlog
  split
  · next hr =>
    subst hr
    cases h
    obtain rfl := List.mem_singleton.mp hx
    obtain ⟨h0, h1, h2⟩ := divlog3_addr_ne i k
    rw [rget_rset_ne _ _ _ _ _ _ _ _ h2, rget_rset_ne _ _ _ _ _ _ _ _ h1, rget_rset_ne _ _ _ _ _ _ _ _ h0]
  · rfl

theorem exists_of_length_three {rs : List Reg} (h : rs.length = 3) : ∃ ar sr cr, rs = [ar, sr, cr] := by
  match rs, h with
  | [ar, sr, cr], _ => exact ⟨ar, sr, cr, rfl⟩

/-- Clearing a record writes its registers and the divergence log only; a first-error record has index 0. -/
theorem wrote_recordClear (s : State) {r : Reg} (i k : Nat) {b : Nat} {rs : List Reg} (h : recordOf r = some (b, rs)) (hk : k < r.info.cnt) :
    s.Wrote (s.recordClear r i k) (recordAddrs rs i k) := by
  by_cases hm : (s.w1cNow (r.addr i k)).bits = 0
  · rw [s.recordClear_unmarked i k h hm]
    exact (wrote_foldl _ rs (fun t x hx => wrote_rset t _ _ _ _ (mem_recordAddrs hx i k)) s).trans (wrote_clearDivlog ..)
  · by_cases hl : rs.length = 3
    · obtain ⟨ar, sr, cr, rfl⟩ := exists_of_length_three hl
      obtain rfl : k = 0 := by have := (recordOf_layout h).1 rfl; omega
      rw [s.recordClear_marked_first i 0 h hm]
      exact ((wrote_rset s _ _ _ _ (mem_recordAddrs (by simp) i 0)).trans (wrote_rset _ _ _ _ _ (mem_recordAddrs (by simp) i 0))).trans
        (wrote_rset _ _ _ _ _ (mem_recordAddrs (by simp) i 0))
    · rw [s.recordClear_marked_other i k h hl hm]
      exact Wrote.refl s _

/-- Its registers read their reset values then. -/
theorem rget_recordClear_unmarked (s : State) {r : Reg} (i k : Nat) {b : Nat} {rs : List Reg} (h : recordOf r = some (b, rs))
    (hm : (s.w1cNow (r.addr i k)).bits = 0) {x : Reg} (hx : x ∈ rs) : (s.recordClear r i k).rget x i k = x.info.reset % 2 ^ 64 := by
  rw [s.recordClear_unmarked i k h hm, rget_clearDivlog _ h hx]
  exact rget_foldl_rset (fun x => x.info.reset) i k rs
    (fun x hx y hy hxy => ((recordOf_layout h).2.2 x hx y hy hxy).addr_ne i k) s x hx

/-- A first-error record that the device has just set reads the error of this SCLK cycle. -/
theorem rget_recordClear_marked (s : State) {r : Reg} (i k : Nat) {b : Nat} {ar sr cr : Reg} (h : recordOf r = some (b, [ar, sr, cr]))
    (hm : (s.w1cNow (r.addr i k)).bits ≠ 0) :
    (s.recordClear r i k).rget ar i = (s.w1cNow (r.addr i k)).addr % 2 ^ 64 ∧
    (s.recordClear r i k).rget sr i = ((s.w1cNow (r.addr i k)).stat + 1) % 2 ^ 64 ∧
    (s.recordClear r i k).rget cr i = (s.w1cNow (r.addr i k)).more % 2 ^ 64 := by
  obtain ⟨_, hd, hb⟩ := recordOf_layout h
  obtain ⟨ha, hd⟩ := List.nodup_cons.mp hd
  obtain ⟨hs, _⟩ := List.nodup_cons.mp hd
  have has : ar.addr i 0 ≠ sr.addr i 0 := (hb ar (by simp) sr (by simp) fun e => ha (by simp [e])).addr_ne i 0
  have hac : ar.addr i 0 ≠ cr.addr i 0 := (hb ar (by simp) cr (by simp) fun e => ha (by simp [e])).addr_ne i 0
  have hsc : sr.addr i 0 ≠ cr.addr i 0 := (hb sr (by simp) cr (by simp) fun e => hs (by simp [e])).addr_ne i 0
  rw [s.recordClear_marked_first i k h hm]
  refine ⟨?_, ?_, rget_rset_same ..⟩
  · rw [rget_rset_ne _ _ _ _ _ _ _ _ hac, rget_rset_ne _ _ _ _ _ _ _ _ has, rget_rset_same]
  · rw [rget_rset_ne _ _ _ _ _ _ _ _ hsc, rget_rset_same]

/-! ### Counters -/

/-- One bit of a write of a CTRCLR register. -/
def clearCounter (i v : Nat) (s : State) (p : Reg × Nat) : State :=
  if v.testBit p.2 then (if p.1 = .ITL_LATECNT then (if i = 0 then s.rset p.1 0 0 0 else s) else s.rset p.1 i 0 0) else s

theorem ctrClear_eq (s : State) (r : Reg) (i v : Nat) : s.ctrClear r i v = (ctrRegs r).zipIdx.foldl (clearCounter i v) s := rfl

/-- A bit that clears: the late counter of the device with module 0 only. -/
theorem clearCounter_hit (s : State) (i v : Nat) (p : Reg × Nat) (hv : v.testBit p.2 = true) (hl : p.1 ≠ .ITL_LATECNT ∨ i = 0) :
    clearCounter i v s p = s.rset p.1 i 0 0 := by
  unfold clearCounter
  rw [if_pos hv]
  split
  · next h =>
    obtain rfl : i = 0 := hl.resolve_left fun hne => hne h
    exact if_pos rfl
  · rfl

theorem clearCounter_cases (s : State) (i v : Nat) (p : Reg × Nat) :
    clearCounter i v s p = s ∨ v.testBit p.2 = true ∧ clearCounter i v s p = s.rset p.1 i 0 0 := by
  by_cases hv : v.testBit p.2 = true
  · by_cases hl : p.1 ≠ .ITL_LATECNT ∨ i = 0
    · exact .inr ⟨hv, clearCounter_hit s i v p hv hl⟩
    · obtain ⟨hlate, hi⟩ := not_or.mp hl
      exact .inl (by unfold clearCounter; rw [if_pos hv, if_pos (Decidable.not_not.mp hlate), if_neg hi])
  · exact .inl (if_neg hv)

/-- Counters count from 0. -/
theorem ctrRegs_reset (r : Reg) : ∀ x ∈ ctrRegs r, x.info.reset = 0 := by
  unfold ctrRegs
  split <;> decide

/-- Writing 0 to a counter leaves a counter that is 0 at 0. -/
theorem rget_rset_zero (s : State) (x r : Reg) (i : Nat) (hx : x.info.reset = 0) (hr : r.info.reset = 0) (h : s.rget r i 0 = 0) :
    (s.rset x i 0 0).rget r i 0 = 0 := by
  by_cases ha : r.addr i 0 = x.addr i 0
  · simp [rget, rset, ha, hx, hr]
  · rw [rget_rset_ne _ _ _ _ _ _ _ _ ha, h]

/-- The counters whose bits are written are 0 afterwards. -/
theorem rget_ctrClear (s : State) (r : Reg) (i v j : Nat) (h : j < (ctrRegs r).length) (hv : v.testBit j = true)
    (hl : (ctrRegs r)[j] ≠ .ITL_LATECNT ∨ i = 0) : (s.ctrClear r i v).rget (ctrRegs r)[j] i 0 = 0 := by
  have hz : ∀ p ∈ (ctrRegs r).zipIdx, p.1.info.reset = 0 := fun p hp => ctrRegs_reset r _ (List.fst_mem_of_mem_zipIdx hp)
  rw [ctrClear_eq]
  refine foldl_establishes (fun p t => v.testBit p.2 = true → p.1 ≠ .ITL_LATECNT ∨ i = 0 → t.rget p.1 i 0 = 0) _ _ (fun t p _ hv hl => ?_)
    (fun t p hp q hq ht hv hl => ?_) s ((ctrRegs r)[j], j) (List.mk_mem_zipIdx_iff_getElem?.mpr (List.getElem?_eq_getElem h)) hv hl
  · rw [clearCounter_hit t i v p hv hl, rget_rset_same, Nat.zero_mod]
  · rcases clearCounter_cases t i v q with e | ⟨_, e⟩ <;> rw [e]
    · exact ht hv hl
    · exact rget_rset_zero t q.1 p.1 i (hz q hq) (hz p hp) (ht hv hl)

/-- No other register is written. -/
theorem wrote_ctrClear (s : State) (r : Reg) (i v : Nat) :
    s.Wrote (s.ctrClear r i v) (((ctrRegs r).zipIdx.filter fun p => v.testBit p.2).map fun p => p.1.addr i 0) := by
  rw [ctrClear_eq]
  refine wrote_foldl _ _ (fun t p hp => ?_) s
  rcases clearCounter_cases t i v p with e | ⟨hv, e⟩ <;> rw [e]
  · exact Wrote.refl t _
  · exact wrote_rset t _ _ _ _ (List.mem_map_of_mem (f := fun p : Reg × Nat => p.1.addr i 0) (List.mem_filter.mpr ⟨hp, hv⟩))

end State

theorem execErrorRecordClear_eq (s : State) {addr : BitVec 64} {r : Reg} {i k b : Nat} {rs : List Reg} (hs : s.ready = true)
    (ha : regAt addr.toNat = .reg r i k) (h : recordOf r = some (b, rs)) :
    exec (.errorRecordClear addr) s = .next (s.finish (s.recordClear r i k)) := by
  rw [exec_errorRecordClear]
  unfold execErrorRecordClear
  rw [ha]
  exact s.when_true _ _ (by simp [hs, h])

theorem execCounterClear_eq (s : State) {addr : BitVec 64} (v : BitVec 64) {r : Reg} {i k : Nat} (hs : s.ready = true)
    (ha : regAt addr.toNat = .reg r i k) (h : ctrRegs r ≠ []) :
    exec (.counterClear addr v) s = .next (s.finish (s.ctrClear r i v.toNat)) := by
  rw [exec_counterClear]
  unfold execCounterClear
  rw [ha]
  exact s.when_true _ _ (by simp [hs, h])

/-- Settles O44: a quiet block is left with the clear alone, which is a fold of register writes over the record or over the counters named. -/
theorem clearsReachTheirOwnRegisters : Obligations.ClearsReachTheirOwnRegisters := by
  intro s addr v r i k hq hs ha
  refine ⟨fun b rs h => ?_, fun h => ?_⟩
  · have hw := s.wrote_recordClear i k h (regAt_index_lt ha)
    refine ⟨_, (execErrorRecordClear_eq s hs ha h).trans (congrArg _ (hw.finish_eq hq)), hw.1, hw.2,
      fun hm x hx => s.rget_recordClear_unmarked i k h hm hx, fun hm => ⟨fun hl => s.recordClear_marked_other i k h hl hm, ?_⟩⟩
    rintro ar sr cr rfl
    exact s.rget_recordClear_marked i k h hm
  · have hw := s.wrote_ctrClear r i v.toNat
    exact ⟨_, (execCounterClear_eq s v hs ha h).trans (congrArg _ (hw.finish_eq hq)), hw.1, fun j => s.rget_ctrClear r i v.toNat j, hw.2⟩

end Sys2Proof.Machine
end

section
/-! Writes of registers by access type, of the windows in register space, and the sensors' readmission (O45). -/
namespace Sys2Proof.Machine

/-! ### Bits and bytes of a value -/

/-- Taking the bits of a mask away. -/
theorem testBit_sub_and (b : Nat) : ∀ x y : Nat, (x - (x &&& y)).testBit b = (x.testBit b && !y.testBit b) := by
  induction b with
  | zero =>
    intro x y
    have hle : x &&& y ≤ x := Nat.and_le_left
    have hmod : (x &&& y) % 2 = 1 ↔ x % 2 = 1 ∧ y % 2 = 1 := Nat.and_mod_two_eq_one
    simp only [Nat.testBit_zero, ← decide_not, ← Bool.decide_and, decide_eq_decide]
    omega
  | succ b ih =>
    intro x y
    have hle : x &&& y ≤ x := Nat.and_le_left
    have hmod : (x &&& y) % 2 = 1 ↔ x % 2 = 1 ∧ y % 2 = 1 := Nat.and_mod_two_eq_one
    have hdiv : (x - (x &&& y)) / 2 = x / 2 - (x / 2 &&& y / 2) := by rw [← Nat.and_div_two]; omega
    rw [Nat.testBit_add_one, Nat.testBit_add_one, Nat.testBit_add_one, hdiv, ih]

/-- R21: a bit of a write, by the access type of its field. -/
theorem testBit_mergeWrite (x : RegInfo) (old v b : Nat) : (mergeWrite x old v).testBit b =
    if (x.rw.testBit b || x.rwl.testBit b) = true then v.testBit b else old.testBit b && !(x.w1c.testBit b && v.testBit b) := by
  unfold mergeWrite
  simp only [Nat.testBit_or, testBit_sub_and, Nat.testBit_and]
  cases x.rw.testBit b <;> cases x.rwl.testBit b <;> simp

theorem length_leBytes (n x : Nat) : (leBytes n x).length = n := by
  induction n generalizing x with
  | zero => rfl
  | succ n ih => simp [leBytes, ih]

/-- The bytes of a number spell it again, cut to their width. -/
theorem leNat_leBytes (n x : Nat) : leNat (leBytes n x) = x % 256 ^ n := by
  induction n generalizing x with
  | zero => simp [leBytes, leNat, Nat.mod_one]
  | succ n ih =>
    rw [leBytes, leNat, ih, BitVec.toNat_ofNat, show 256 ^ (n + 1) = 256 * 256 ^ n from Nat.pow_succ', Nat.mod_mul]

namespace State

/-- What is stored reads back as a whole. -/
theorem bytes_putBytes (s : State) (a : Nat) (bs : List Byte) : (s.putBytes a bs).bytes a bs.length = bs := by
  refine List.ext_getElem (by simp [bytes]) fun i h _ => ?_
  simp only [bytes, List.getElem_map, List.getElem_range]
  exact byte_putBytes_in ..

theorem nat_putBytes_leBytes (s : State) (a n x : Nat) : (s.putBytes a (leBytes n x)).nat a n = x % 256 ^ n := by
  have h := s.bytes_putBytes a (leBytes n x)
  rw [length_leBytes] at h
  rw [nat, h, leNat_leBytes]

/-! ### A register whose write only stores -/

/-- R21: the access types as they stand now: RWL fields are read-only while they are locked. -/
def infoNow (s : State) (r : Reg) : RegInfo := { r.info with rwl := if s.locked = true then 0 else r.info.rwl }

/-- A write stores the bits that its fields take, where the device has set none of them in this SCLK cycle. -/
theorem fieldWrite_state (s : State) (r : Reg) (i k v : Nat) (hm : (s.w1cNow (r.addr i k)).bits = 0) :
    (s.fieldWrite r i k v).2 = s.rset r i k (mergeWrite (s.infoNow r) (s.rget r i k) v) := by
  have hw : r.info.w1c - (r.info.w1c &&& (s.w1cNow (r.addr i k)).bits) = r.info.w1c := by rw [hm, Nat.and_zero, Nat.sub_zero]
  have hx : (if (s.locked && decide (r.info.rwl ≠ 0)) = true then { r.info with rwl := 0 } else r.info) = s.infoNow r := by
    unfold infoNow
    cases s.locked
    · rfl
    · by_cases h0 : r.info.rwl = 0
      · simp [← h0]
      · simp [h0]
  unfold fieldWrite
  dsimp only
  rw [hx]
  exact congrArg (fun w => s.rset r i k (mergeWrite { s.infoNow r with w1c := w } (s.rget r i k) v)) hw

/-- R21: each bit of a register after a write that only stores. -/
theorem testBit_fieldWrite (s : State) (r : Reg) (i k v : Nat) (hm : (s.w1cNow (r.addr i k)).bits = 0) {b : Nat} (hb : b < 64) :
    ((s.fieldWrite r i k v).2.rget r i k).testBit b =
      if (r.info.rw.testBit b || r.info.rwl.testBit b && !s.locked) = true then v.testBit b
      else (s.rget r i k).testBit b && !(r.info.w1c.testBit b && v.testBit b) := by
  have hl : (s.infoNow r).rwl.testBit b = (r.info.rwl.testBit b && !s.locked) := by unfold infoNow; cases s.locked <;> simp
  rw [s.fieldWrite_state r i k v hm, rget_rset_same, Nat.testBit_mod_two_pow, testBit_mergeWrite, hl, decide_eq_true hb, Bool.true_and]
  rfl

/-! ### Writes by what lies at the address (R18, R19, R115) -/

theorem regWrite_reg (s : State) {a : Nat} (v : Nat) {r : Reg} {i k : Nat} (h : regAt a = .reg r i k) (hr : r.acts = false) :
    s.regWrite a v = s.fieldWrite r i k v := by
  unfold regWrite
  rw [h]
  dsimp only
  rw [hr]
  rfl

theorem regAt_unaligned {a : Nat} (h : a % 8 ≠ 0) : regAt a = .unaligned (mailboxWindow a) := by
  unfold regAt
  rw [if_pos h]

theorem regWrite_unaligned (s : State) {a : Nat} (v : Nat) (h : a % 8 ≠ 0) : s.regWrite a v = (ST.UNALIGNED,
    if mailboxWindow a = true then s.errSTR a ST.UNALIGNED 7 else s.errSYS a ST.UNALIGNED 1) := by
  unfold regWrite
  rw [regAt_unaligned h]
  rfl

theorem regWrite_readOnly (s : State) {a : Nat} (v : Nat) (h : regAt a = .readOnly) : s.regWrite a v = (ST.ABSENT, s.errSTR a ST.ABSENT 7) := by
  unfold regWrite
  rw [h]

theorem regWrite_mailbox (s : State) {a : Nat} (v : Nat) (h : regAt a = .mailbox) :
    s.regWrite a v = (if s.replayStandby = true then ST.STATE else ST.OK,
      s.mailboxWrite ((a - inSlot 0) / 64) ((a - inSlot 0) % 64) (leBytes 8 v)) := by
  unfold regWrite
  rw [h]

theorem regWrite_table (s : State) {a : Nat} (v : Nat) (h : regAt a = .table) :
    s.regWrite a v = if s.locked = true then (ST.LOCKED, s) else (ST.OK, s.putBytes a (leBytes 8 v)) := by
  unfold regWrite
  rw [h]

/-! ### The sensors (R488) -/

/-- `t` is `s` but for registers and the power state, and of the registers only those at `as` read otherwise. -/
def WroteSensors (s t : State) (as : List Nat) : Prop := t = { s with regs := t.regs, pow := t.pow } ∧ RegsKept s t as

theorem WroteSensors.refl (s : State) (as : List Nat) : s.WroteSensors s as := ⟨rfl, RegsKept.refl s as⟩

theorem WroteSensors.trans {s t u : State} {as : List Nat} (h : s.WroteSensors t as) (h' : t.WroteSensors u as) : s.WroteSensors u as :=
  ⟨by rw [h'.1, h.1], h.2.trans h'.2⟩

theorem WroteSensors.finish_eq {s t : State} {as : List Nat} (h : s.WroteSensors t as) (hq : Quiet s) : s.finish t = t := by
  obtain ⟨e, _⟩ := h
  exact finish_eq_self hq (by rw [e]) (by rw [e]) (by rw [e]) (by rw [e])

/-- Neither sensor of a unit is suspect. -/
def Trusted (i : Nat) (s : State) : Prop := s.fget F.THM_SNS_SUSA i = 0 ∧ s.fget F.THM_SNS_SUSB i = 0

theorem trusted_of_rget_zero {s : State} {i : Nat} (h : s.rget .THM_SNS i = 0) : Trusted i s := by
  simp [Trusted, fget, h, bits]

theorem addr_thmSns (i : Nat) : Reg.addr .THM_SNS i 0 = 0x7F0031000018 + i * 0x10000 := by
  rw [Reg.addr_local _ 3 0x18 8 rfl rfl rfl rfl]
  omega

theorem addr_thmSns_ne {i j : Nat} (h : i ≠ j) : Reg.addr .THM_SNS i 0 ≠ Reg.addr .THM_SNS j 0 := by
  rw [addr_thmSns, addr_thmSns]
  omega

theorem readmit_regs (s : State) (i : Nat) : (s.readmit i).regs = ((s.fset F.THM_SNS_SUSA i 0 0).fset F.THM_SNS_SUSB i 0 0).regs := rfl

theorem trusted_readmit (s : State) (i : Nat) : Trusted i (s.readmit i) := by
  refine ⟨?_, ?_⟩
  · rw [fget_congr (s.readmit_regs i), fget_fset_beside _ F.THM_SNS_SUSB F.THM_SNS_SUSA _ _ _ rfl (by decide) (by decide) (by decide) (by decide),
      fget_fset_same _ _ _ _ _ (by decide) (by decide)]
    rfl
  · rw [fget_congr (s.readmit_regs i), fget_fset_same _ _ _ _ _ (by decide) (by decide)]
    rfl

theorem fget_readmit_ne (s : State) {i j : Nat} (f : Fld) (hf : f.reg = .THM_SNS) (h : i ≠ j) : (s.readmit j).fget f i 0 = s.fget f i 0 := by
  have ha : f.reg.addr i 0 ≠ Reg.addr .THM_SNS j 0 := by rw [hf]; exact addr_thmSns_ne h
  rw [fget_congr (s.readmit_regs j), fget_fset_ne _ F.THM_SNS_SUSB f _ _ _ _ _ ha, fget_fset_ne _ F.THM_SNS_SUSA f _ _ _ _ _ ha]

theorem Trusted.readmit {s : State} {i : Nat} (h : Trusted i s) (j : Nat) : Trusted i (s.readmit j) := by
  by_cases hij : i = j
  · rw [hij]; exact trusted_readmit s j
  · unfold Trusted
    rw [fget_readmit_ne s F.THM_SNS_SUSA rfl hij, fget_readmit_ne s F.THM_SNS_SUSB rfl hij]
    exact h

theorem wroteSensors_fset (s : State) (f : Fld) (i k v : Nat) {as : List Nat} (h : f.reg.addr i k ∈ as) : s.WroteSensors (s.fset f i k v) as :=
  ⟨rfl, regsKept_rset s f.reg i k _ h⟩

theorem wroteSensors_setTherm (s : State) (i : Nat) (t : Therm) (as : List Nat) : s.WroteSensors (s.setTherm i t) as :=
  ⟨rfl, RegsKept.refl s as⟩

theorem wroteSensors_readmit (s : State) (i : Nat) {as : List Nat} (h : Reg.addr .THM_SNS i 0 ∈ as) : s.WroteSensors (s.readmit i) as := by
  unfold readmit
  exact ((wroteSensors_fset s F.THM_SNS_SUSA i 0 0 h).trans (wroteSensors_fset _ F.THM_SNS_SUSB i 0 0 h)).trans (wroteSensors_setTherm _ i _ as)

/-- What a clear of all sensors does at one unit. -/
def readmitSuspect (s : State) (i : Nat) : State := if s.rget .THM_SNS i = 0 then s else s.readmit i

theorem snsClear_all (s : State) (inst : Nat) : s.snsClear true inst = (List.range 136).foldl readmitSuspect s := rfl

theorem snsClear_one (s : State) {inst : Nat} (h : inst < 136) : s.snsClear false inst = s.readmit inst := by
  unfold snsClear
  rw [if_neg (by decide), if_pos h]

theorem snsClear_none (s : State) {inst : Nat} (h : 136 ≤ inst) : s.snsClear false inst = s := by
  unfold snsClear
  rw [if_neg (by decide), if_neg (by omega)]

theorem readmitSuspect_cases (s : State) (i : Nat) :
    s.rget .THM_SNS i = 0 ∧ s.readmitSuspect i = s ∨ s.readmitSuspect i = s.readmit i := by
  unfold readmitSuspect
  split
  · next h => exact .inl ⟨h, rfl⟩
  · exact .inr rfl

theorem trusted_snsClear_all (s : State) (inst i : Nat) (h : i < 136) : Trusted i (s.snsClear true inst) := by
  rw [snsClear_all]
  refine foldl_establishes Trusted _ _ (fun t i _ => ?_) (fun t i _ j _ ht => ?_) s i (List.mem_range.mpr h)
  · rcases t.readmitSuspect_cases i with ⟨h0, e⟩ | e <;> rw [e]
    · exact trusted_of_rget_zero h0
    · exact trusted_readmit t i
  · rcases t.readmitSuspect_cases j with ⟨_, e⟩ | e <;> rw [e]
    · exact ht
    · exact ht.readmit j

theorem wroteSensors_snsClear_all (s : State) (inst : Nat) :
    s.WroteSensors (s.snsClear true inst) ((List.range 136).map fun i => Reg.addr .THM_SNS i 0) := by
  rw [snsClear_all]
  refine List.foldlRecOn (motive := fun t => s.WroteSensors t ((List.range 136).map fun i => Reg.addr .THM_SNS i 0)) (List.range 136)
    readmitSuspect (WroteSensors.refl s _) fun t ht i hi => ht.trans ?_
  rcases t.readmitSuspect_cases i with ⟨_, e⟩ | e <;> rw [e]
  · exact WroteSensors.refl t _
  · exact wroteSensors_readmit t i (List.mem_map_of_mem (f := fun i => Reg.addr .THM_SNS i 0) hi)

end State

theorem execRegisterWrite_eq (s : State) (addr v : BitVec 64) (hs : s.ready = true) :
    exec (.registerWrite addr v) s = .next (s.finish (s.regWrite addr.toNat v.toNat).2) := by
  rw [exec_registerWrite]
  exact s.when_true _ _ hs

theorem execSnsClear_eq (s : State) (all : Bool) (inst : BitVec 8) (hs : s.ready = true) :
    exec (.snsClear all inst) s = .next (s.finish (s.snsClear all inst.toNat)) := by
  rw [exec_snsClear]
  exact s.when_true _ _ hs

/-- REGISTER_WRITE of a register that only stores, in a quiet block. -/
theorem exec_registerWrite_stores (s : State) (addr v : BitVec 64) (hs : s.ready = true) {r : Reg} {i k : Nat} (hq : Quiet s)
    (ha : regAt addr.toNat = .reg r i k) (hr : r.acts = false) (hm : (s.w1cNow (r.addr i k)).bits = 0) :
    ∃ t, exec (.registerWrite addr v) s = .next t ∧ t = { s with regs := t.regs } ∧ RegsKept s t [r.addr i k] ∧
      ∀ b < 64, (t.rget r i k).testBit b =
        if (r.info.rw.testBit b || r.info.rwl.testBit b && !s.locked) = true then v.getLsbD b
        else (s.rget r i k).testBit b && !(r.info.w1c.testBit b && v.getLsbD b) := by
  have hw : s.Wrote (s.fieldWrite r i k v.toNat).2 [r.addr i k] := by
    rw [s.fieldWrite_state r i k v.toNat hm]
    exact State.wrote_rset s _ _ _ _ (by simp)
  refine ⟨_, (execRegisterWrite_eq s addr v hs).trans ?_, hw.1, hw.2, fun b hb => s.testBit_fieldWrite r i k v.toNat hm hb⟩
  rw [s.regWrite_reg v.toNat ha hr, hw.finish_eq hq]

/-- A table window takes 8 bytes unless the stream locks it. -/
theorem regWrite_table_takes (s : State) {a v : Nat} (hv : v < 2 ^ 64) (h : regAt a = .table) :
    (s.locked = true → s.regWrite a v = (ST.LOCKED, s)) ∧
    (s.locked = false → (s.regWrite a v).1 = ST.OK ∧ (s.regWrite a v).2.nat a 8 = v) := by
  rw [s.regWrite_table v h]
  refine ⟨fun hl => if_pos hl, fun hl => ?_⟩
  rw [if_neg (by simp [hl])]
  exact ⟨rfl, (s.nat_putBytes_leBytes a 8 v).trans (Nat.mod_eq_of_lt hv)⟩

/-- Settles O45: the write of a register by bits, every other write by its place, and the clears of the sensors as readmissions. -/
theorem registerSpaceWrites : Obligations.RegisterSpaceWrites := by
  intro s addr v hs
  refine ⟨execRegisterWrite_eq s addr v hs, fun r i k hq ha hr hm => exec_registerWrite_stores s addr v hs hq ha hr hm,
    s.regWrite_unaligned v.toNat, s.regWrite_readOnly v.toNat, s.regWrite_mailbox v.toNat, s.regWrite_nothing v.toNat,
    regWrite_table_takes s v.isLt, fun inst hi hq => ?_, fun inst hi hq => ?_, fun inst hq => ?_⟩
  · have hw := s.wroteSensors_readmit inst.toNat (List.mem_singleton_self _)
    have ht := s.trusted_readmit inst.toNat
    exact ⟨_, by rw [execSnsClear_eq s _ _ hs, s.snsClear_one hi, hw.finish_eq hq], ht.1, ht.2, hw.1, hw.2⟩
  · rw [execSnsClear_eq s _ _ hs, s.snsClear_none hi, (State.WroteSensors.refl s []).finish_eq hq]
  · have hw := s.wroteSensors_snsClear_all inst.toNat
    exact ⟨_, by rw [execSnsClear_eq s _ _ hs, hw.finish_eq hq], s.trusted_snsClear_all inst.toNat, hw.1, hw.2⟩

end Sys2Proof.Machine
end

section
/-! What the controllers' own service leaves alone: lifecycle, stream state and commands in progress (O48). -/
namespace Sys2Proof.Machine

/-- A fold whose steps all keep a view of the state keeps it. -/
theorem foldl_keeps {σ α γ : Type} (view : σ → γ) (f : σ → α → σ) (l : List α) (x : σ)
    (h : ∀ x, ∀ a ∈ l, view (f x a) = view x) : view (l.foldl f x) = view x :=
  List.foldlRecOn (motive := fun y => view y = view x) l f rfl fun y hy a ha => (h y a ha).trans hy

namespace State

/-- What memory, links and pages are served without: the lifecycle, the stream's state and the commands in progress. -/
def control (s : State) : Life × StreamState × List Cmd := (s.life, s.str.st, s.cmds)

theorem control_eq {s t : State} (hl : t.life = s.life) (hs : t.str.st = s.str.st) (hc : t.cmds = s.cmds) : t.control = s.control := by
  simp only [control, hl, hs, hc]

variable (s : State)

/-! ### Writes of the state -/

@[simp] theorem control_rset (r : Reg) (i k v : Nat) : (s.rset r i k v).control = s.control := control_eq rfl rfl rfl
@[simp] theorem control_fset (f : Fld) (i k v : Nat) : (s.fset f i k v).control = s.control := control_eq rfl rfl rfl
@[simp] theorem control_rclear (r : Reg) : (s.rclear r).control = s.control := control_eq rfl rfl rfl
@[simp] theorem control_raise (e : Ev) (u b c v h : Nat) : (s.raise e u b c v h).control = s.control := control_eq rfl rfl rfl
@[simp] theorem control_raiseAddr (e : Ev) (a st q : Nat) : (s.raiseAddr e a st q).control = s.control := control_eq rfl rfl rfl
@[simp] theorem control_sched (i b c : Nat) : (s.sched i b c).control = s.control := control_eq rfl rfl rfl
@[simp] theorem control_setChan (c : Chan) (v : VCh) : (s.setChan c v).control = s.control := control_eq rfl rfl rfl
@[simp] theorem control_modChan (c : Chan) (f : VCh → VCh) : (s.modChan c f).control = s.control := control_eq rfl rfl rfl
@[simp] theorem control_loseRange (a n : Nat) : (s.loseRange a n).control = s.control := control_eq rfl rfl rfl
@[simp] theorem control_storeWord (nc w : Nat) (d : Line) : (s.storeWord nc w d).control = s.control := control_eq rfl rfl rfl
@[simp] theorem control_setPort (p : Nat) (v : Port) : (s.setPort p v).control = s.control := control_eq rfl rfl rfl
@[simp] theorem control_setCic (c : Cic) : (s.setCic c).control = s.control := control_eq rfl rfl rfl
@[simp] theorem control_setWch (k ch : Nat) (c : WCh) : (s.setWch k ch c).control = s.control := control_eq rfl rfl rfl
@[simp] theorem control_setDir (m d : Nat) (v : ItlDir) : (s.setDir m d v).control = s.control := control_eq rfl rfl rfl
@[simp] theorem control_setSc (k c : Nat) (v : SChan) : (s.setSc k c v).control = s.control := control_eq rfl rfl rfl
@[simp] theorem control_hqSet (q : Nat) (l : List HLine) : (s.hqSet q l).control = s.control := control_eq rfl rfl rfl
@[simp] theorem control_lineBack (q i : Nat) (d : Line) (st : Nat) : (s.lineBack q i d st).control = s.control := control_eq rfl rfl rfl
@[simp] theorem control_setStall (x : Stall) : (s.setStall x).control = s.control := control_eq rfl rfl rfl

theorem control_ite {a b : State} (c : Prop) [Decidable c] (ha : a.control = s.control) (hb : b.control = s.control) :
    (if c then a else b).control = s.control := by
  split <;> assumption

theorem control_foldl {α : Type} (f : State → α → State) (l : List α) (h : ∀ (t : State) (a : α), (f t a).control = t.control) :
    (l.foldl f s).control = s.control := foldl_keeps control f l s fun t a _ => h t a

@[simp] theorem control_bump (f : Fld) (i k n : Nat) : (s.bump f i k n).control = s.control := s.control_ite _ rfl rfl
@[simp] theorem control_send (q : Nat) (m : Msg) : (s.send q m).control = s.control := s.control_ite _ rfl rfl
@[simp] theorem control_request (src half unit : Nat) : (s.request src half unit).control = s.control := s.control_ite _ rfl rfl
@[simp] theorem control_noteWrite (a : Nat) : (s.noteWrite a).control = s.control := s.control_ite _ rfl rfl

@[simp] theorem control_firstErr (ar sr cr : Reg) (i a v : Nat) : (s.firstErr ar sr cr i a v).control = s.control := by
  obtain ⟨r, w, e, h⟩ := s.firstErr_frame ar sr cr i a v
  rw [h]
  rfl

@[simp] theorem control_errCOR (n a st c : Nat) : (s.errCOR n a st c).control = s.control := s.control_firstErr ..
@[simp] theorem control_errVLT (n a st c : Nat) : (s.errVLT n a st c).control = s.control := s.control_firstErr ..
@[simp] theorem control_errSSK (k ch a st c : Nat) : (s.errSSK k ch a st c).control = s.control := s.control_firstErr ..
@[simp] theorem control_errSCB (k ch a st c : Nat) : (s.errSCB k ch a st c).control = s.control := s.control_firstErr ..
@[simp] theorem control_errETH (p a st q : Nat) : (s.errETH p a st q).control = s.control := s.control_firstErr ..

theorem control_reveal (l : Line) : ∀ s : State, (s.reveal l).2.control = s.control := by
  induction l with
  | nil => exact fun _ => rfl
  | cons b l ih => cases b <;> exact fun s => ih _

/-! ### Channels -/

@[simp] theorem control_chErr (c : Chan) (off st ca : Nat) : (s.chErr c off st ca).control = s.control := by
  cases c <;> exact s.control_firstErr ..

@[simp] theorem control_chSched (c : Chan) (ca : Nat) : (s.chSched c ca).control = s.control := by cases c <;> rfl
@[simp] theorem control_chCorr (c : Chan) : (s.chCorr c).control = s.control := by cases c <;> exact s.control_bump ..
@[simp] theorem control_chUnc (c : Chan) : (s.chUnc c).control = s.control := by cases c <;> exact s.control_bump ..

@[simp] theorem control_mapOut (c : Chan) (x : Nat) : (s.mapOut c x).control = s.control := by
  unfold mapOut
  cases c <;> simp

@[simp] theorem control_failLine (c : Chan) (j x : Nat) : (s.failLine c j x).control = s.control := by
  unfold failLine
  dsimp only
  split
  · rfl
  · split
    · simp
    · cases c <;> dsimp only <;> split <;> simp

@[simp] theorem control_weakRow (n c b r : Nat) : (s.weakRow n c b r).control = s.control := by
  unfold weakRow
  dsimp only
  split
  · rfl
  · split
    · simp
    · split <;> simp

@[simp] theorem control_noteCorr (c : Chan) (off : Nat) : (s.noteCorr c off).control = s.control := by
  cases c with
  | side => rfl
  | vault => exact s.control_ite _ (control_weakRow ..) rfl

@[simp] theorem control_corrected (c : Chan) (off : Nat) (d : Line) (errs : List (Nat × Nat)) (sg : Option Nat) :
    (s.corrected c off d errs sg).control = s.control := by
  unfold corrected
  refine (control_foldl _ _ _ fun t j => t.control_ite _ (t.control_failLine c j 2) rfl).trans ?_
  exact s.control_ite _ (by simp) (by simp)

@[simp] theorem control_readWord (c : Chan) (off : Nat) : (s.readWord c off).2.2.control = s.control := by
  unfold readWord
  dsimp only
  split <;> simp

@[simp] theorem control_countRead (c : Chan) : (s.countRead c).control = s.control := rfl

@[simp] theorem control_readLine (c : Chan) (off : Nat) : (s.readLine c off).2.2.control = s.control := by
  unfold readLine
  split
  · simp
  · exact (control_readWord ..).trans (control_readWord ..)

@[simp] theorem control_writeWord (c : Chan) (off : Nat) (d : Line) : (s.writeWord c off d).control = s.control := rfl

@[simp] theorem control_writePart (c : Chan) (off : Nat) (d : List (Nat × PByte)) : (s.writePart c off d).control = s.control := by
  unfold writePart
  refine s.control_ite _ rfl (s.control_ite _ rfl ?_)
  dsimp only
  split
  · rfl
  · exact s.control_ite _ rfl (by simp)

@[simp] theorem control_writeLine (c : Chan) (off : Nat) (d : Line) (en : Nat → Bool) : (s.writeLine c off d en).control = s.control :=
  s.control_ite _ (by simp) (s.control_ite _ (by simp) (by simp))

@[simp] theorem control_activate (c : Chan) (b r : Nat) : (s.activate c b r).control = s.control := s.control_ite _ rfl rfl
@[simp] theorem control_openRow (c : Chan) (off : Nat) : (s.openRow c off).control = s.control := s.control_activate ..

@[simp] theorem control_completeMerge (c : Chan) (e : MergeE) : (s.completeMerge c e).control = s.control := by
  unfold completeMerge
  simp only [control_writeWord, control_modChan, control_openRow]
  exact s.control_ite _ rfl (by simp [mergeRead])

@[simp] theorem control_rewriteWord (c : Chan) (e : RwE) : (s.rewriteWord c e).control = s.control := by simp [rewriteWord]

/-! ### The controllers' own service -/

@[simp] theorem control_setOwed (c : Chan) (v : Nat) : (s.setOwed c v).control = s.control := by cases c <;> rfl

@[simp] theorem control_refRequest (c : Chan) : (s.refRequest c).control = s.control := by
  cases c <;> exact s.control_ite _ (by simp) rfl

@[simp] theorem control_rwRequest (c : Chan) : (s.rwRequest c).control = s.control := by
  cases c <;> exact s.control_ite _ (by simp) rfl

@[simp] theorem control_serveVictims (c : Chan) : (s.serveVictims c).control = s.control :=
  control_foldl _ _ _ fun t _ => t.control_activate ..

@[simp] theorem control_ownService (c : Chan) : (s.ownService c).control = s.control := by
  unfold ownService
  refine s.control_ite _ (by simp) ?_
  have hm : ∀ (l : List MergeE) (t : State), (l.foldl (fun s e => s.completeMerge c e) t).control = t.control := fun l t =>
    t.control_foldl _ _ fun t e => t.control_completeMerge c e
  refine s.control_ite _ (by simp [hm]) ?_
  exact (control_foldl _ _ _ fun t e => t.control_rewriteWord c e).trans (by simp [hm])

@[simp] theorem control_serveAll : s.serveAll.control = s.control := by
  refine s.control_ite _ (s.control_ite _ rfl (s.control_foldl _ _ fun t _ => ?_)) (s.control_foldl _ _ fun t c => t.control_ownService c)
  exact t.control_ite _ (by simp) (by simp)

end State
end Sys2Proof.Machine
end

section
/-! Scratch, pages and Weevil commands leave the lifecycle, the stream state and the commands alone (O48). -/
namespace Sys2Proof.Machine.State

variable (s : State)

/-- A fold that carries a result beside the state. -/
theorem control_foldl_snd {α β : Type} (f : β × State → α → β × State) (l : List α)
    (h : ∀ (p : β × State) (a : α), (f p a).2.control = p.2.control) (p : β × State) : (l.foldl f p).2.control = p.2.control :=
  foldl_keeps (fun p => p.2.control) f l p fun p a _ => h p a

/-! ### Scratch -/

@[simp] theorem control_readScratch (n : Nat) (off : Int) : (s.readScratch n off).2.control = s.control := by
  unfold readScratch
  split
  · simp
  · have hw : ∀ (t : State) (w : Nat), (match (t.decodeWord 3 w []).2 with
        | .corr _ _ => t.bump F.COR_SCRCORR_COUNT n 0 1
        | .uncorr => t.errCOR n (32 * w) ST.UNCORR 2
        | _ => t).control = t.control := fun t w => by split <;> simp
    exact (hw _ _).trans (hw _ _)

theorem control_with_gpois (m : List (Nat × Bool)) : ({ s with gpois := m } : State).control = s.control := control_eq rfl rfl rfl
theorem control_with_syn (m : List (Nat × Nat)) : ({ s with syn := m } : State).control = s.control := control_eq rfl rfl rfl
@[simp] theorem control_putBytes (a : Nat) (bs : List Byte) : (s.putBytes a bs).control = s.control := control_eq rfl rfl rfl

@[simp] theorem control_writeScratch (n : Nat) (off : Int) (d : Line) (en : Nat → Bool) : (s.writeScratch n off d en).control = s.control := by
  unfold writeScratch
  refine s.control_ite _ (by simp) ?_
  extract_lets a r word
  have hw : ∀ (t : State) (k : Nat), (word t k).control = t.control := fun t k => by
    refine t.control_ite _ rfl ((control_foldl _ _ _ fun u g => u.control_with_gpois _).trans ?_)
    refine (control_with_syn _ _).trans ((control_putBytes _ _ _).trans ?_)
    exact t.control_ite _ (t.control_errCOR ..) rfl
  exact (hw _ _).trans ((hw _ _).trans (s.control_noteWrite _))

@[simp] theorem control_scratchBytes (n off len : Nat) : (s.scratchBytes n off len).2.control = s.control := by
  unfold scratchBytes
  refine control_foldl_snd _ _ (fun p i => ?_) ([], s)
  exact p.2.control_readScratch ..

@[simp] theorem control_scratchPut (n off : Nat) (d : Line) : (s.scratchPut n off d).control = s.control :=
  s.control_ite _ rfl (s.control_foldl _ _ fun t _ => t.control_writeScratch ..)

/-! ### Pages -/

@[simp] theorem control_pdesc (n p : Nat) : (s.pdesc n p).2.control = s.control :=
  (control_reveal _ _).trans (s.control_scratchBytes ..)

@[simp] theorem control_setPdesc (n p : Nat) (d : PDesc) : (s.setPdesc n p d).control = s.control := s.control_scratchPut ..

@[simp] theorem control_refillCore (n : Nat) : (s.refillCore n).2.control = s.control := by
  unfold refillCore
  split
  · rfl
  · split
    · rfl
    · simp

@[simp] theorem control_refillAll (mask : List Byte) : (s.refillAll mask).2.control = s.control := by
  unfold refillAll
  refine control_foldl_snd _ _ (fun p n => ?_) ([], s)
  exact p.2.control_refillCore n

/-! ### Weevil commands -/

@[simp] theorem control_cancelRecord (k ch first n : Nat) : (s.cancelRecord k ch first n).control = s.control := s.control_scratchPut ..

@[simp] theorem control_wvCancel (k ch : Nat) : (s.wvCancel k ch).2.2.control = s.control := by simp [wvCancel]

@[simp] theorem control_wvApply (k ch pend : Nat) (clear boundary : Bool) : (s.wvApply k ch pend clear boundary).control = s.control := by
  unfold wvApply
  extract_lets t u v w
  have hv : v.control = s.control := s.control_ite _ (by simp [t, u]) (s.control_ite _ (by simp [t, u]) (by simp [t, u]))
  have hw : w.control = s.control := s.control_ite _ (by simp [hv]) hv
  refine s.control_ite _ ?_ hw
  rcases hc : w.wvCancel k ch with ⟨first, n, x⟩
  have hx : x.control = s.control := by simpa [hc, hw] using w.control_wvCancel k ch
  exact s.control_ite _ hx (s.control_ite _ (by simp [hx]) (by simp [hx]))

@[simp] theorem control_wvPending (boundary : Bool) : (s.wvPending boundary).control = s.control :=
  s.control_foldl _ _ fun t _ => t.control_foldl _ _ fun u _ => u.control_ite _ rfl (by simp)

end Sys2Proof.Machine.State
end

section
/-! Host lines, the die link and the pair's frames leave the lifecycle, the stream state and the commands alone (O48). -/
namespace Sys2Proof.Machine.State

variable (s : State)

/-! ### Host lines -/

@[simp] theorem control_hostErr (a st q : Nat) : (s.hostErr a st q).control = s.control := s.control_errETH ..

@[simp] theorem control_pushLink (m d : Nat) (ls : List VLine) : (s.pushLink m d ls).control = s.control := control_setDir ..

@[simp] theorem control_crossLine (l : HLine) : (s.crossLine l).control = s.control := (control_pushLink ..).trans (control_setDir ..)

@[simp] theorem control_hostDone (l : HLine) (d : Line) (st : Nat) : (s.hostDone l d st).control = s.control := by
  unfold hostDone
  split
  · have he : (if st = 0 then s else s.hostErr l.addr st l.qp).control = s.control := s.control_ite _ rfl (by simp)
    exact s.control_ite _ he (by simp [he])
  · exact control_pushLink ..

@[simp] theorem control_failHostLine (l : HLine) (st : Nat) : (s.failHostLine l st).control = s.control := control_hostDone ..

@[simp] theorem control_hostOpens (c : Chan) (off : Nat) : (s.hostOpens c off).control = s.control := s.control_ite _ rfl (by simp)

@[simp] theorem control_hostRead (a : Nat) : (s.hostRead a).2.2.control = s.control := by
  unfold hostRead
  split
  · split
    · exact control_readScratch ..
    · exact control_errCOR ..
  · rfl
  · split
    · split
      · exact (control_readLine ..).trans (control_hostOpens ..)
      · exact control_chErr ..
    · rfl

@[simp] theorem control_writeHost (c : Chan) (off : Nat) (d : Line) (en : Nat → Bool) : (s.writeHost c off d en).control = s.control :=
  (control_modChan ..).trans (control_writeLine ..)

@[simp] theorem control_hostWrite (a : Nat) (d : List Byte) : (s.hostWrite a d).2.control = s.control := by
  unfold hostWrite
  dsimp only
  split
  · split <;> simp
  · split
    · split
      · simp
      · split <;> simp
    · rfl

@[simp] theorem control_leasedLine (l : HLine) : (s.leasedLine l).control = s.control := by
  unfold leasedLine
  split
  · simp
  · rfl

@[simp] theorem control_serveHostLine (l : HLine) : (s.serveHostLine l).control = s.control := by
  unfold serveHostLine
  refine s.control_ite _ (by simp) ?_
  extract_lets t
  have ht : t.control = s.control := by
    unfold t
    split <;> simp
  refine s.control_ite _ ?_ ?_
  · exact (control_hostDone ..).trans ((control_hostWrite ..).trans ht)
  · exact (control_hostDone ..).trans ((control_hostRead ..).trans ht)

@[simp] theorem control_memReadBody (r : ReadReq) : (s.memReadBody r).2.2.control = s.control := control_reveal ..

@[simp] theorem control_answerRead (r : ReadReq) : (s.answerRead r).control = s.control := by
  unfold answerRead
  rcases hr : s.reveal ((List.range r.lines).flatMap fun i => blurLine (r.line i).1) with ⟨data, t⟩
  have ht : t.control = s.control := by simpa [hr] using control_reveal ((List.range r.lines).flatMap fun i => blurLine (r.line i).1) s
  dsimp only
  split <;> simp [ht]

/-! ### Queues, mesh and ports -/

@[simp] theorem control_drainQueue (q : Nat) : (s.drainQueue q).control = s.control :=
  (control_foldl _ _ _ control_serveHostLine).trans (s.control_hqSet ..)

@[simp] theorem control_drainQueues : s.drainQueues.control = s.control := s.control_foldl _ _ control_drainQueue

@[simp] theorem control_pfcUpdate (p : Nat) : (s.pfcUpdate p).control = s.control := by
  unfold pfcUpdate
  refine s.control_foldl _ _ fun t pri => ?_
  exact t.control_ite _ (by simp) (t.control_ite _ (by simp) rfl)

@[simp] theorem control_meshOut (l : HLine) : (s.meshOut l).control = s.control := s.control_ite _ (by simp) (by simp)

@[simp] theorem control_meshLine (l : HLine) : (s.meshLine l).control = s.control := by
  unfold meshLine
  split
  · simp
  · exact s.control_ite _ (control_eq rfl rfl rfl) (by simp)

@[simp] theorem control_answered (d : Nat) (l : VLine) : (s.answered d l).control = s.control := by
  unfold answered
  dsimp only
  split
  · rfl
  · split <;> simp

@[simp] theorem control_takeV (d : Nat) (l : VLine) : (s.takeV d l).control = s.control := by
  unfold takeV
  split
  · simp
  · split <;> simp
  · simp
  · simp
  · split <;> simp

theorem control_takeVs (d : Nat) (ls : List VLine) : ∀ s : State, (takeVs d ls s).2.control = s.control := by
  induction ls with
  | nil => exact fun _ => rfl
  | cons l ls ih =>
    intro s
    unfold takeVs
    split
    · exact (ih _).trans (s.control_takeV d l)
    · rfl

@[simp] theorem control_drainBuf (m d : Nat) : (s.drainBuf m d).control = s.control := by
  unfold drainBuf
  refine s.control_foldl _ _ fun t f => ?_
  split
  · exact t.control_ite _ rfl ((control_setDir ..).trans (control_takeVs ..))
  · rfl

@[simp] theorem control_pullPorts : s.pullPorts.control = s.control := by
  unfold pullPorts
  extract_lets t held u
  have ht : t.control = s.control := s.control_foldl _ _ fun t p => t.control_drainBuf p.1 p.2
  have hu : u.control = t.control := by
    refine t.control_foldl _ _ fun v x => ?_
    exact v.control_ite _ (by simp) (v.control_ite _ (by simp) rfl)
  exact (u.control_foldl _ _ control_pfcUpdate).trans (hu.trans ht)

/-! ### Frames of the pair -/

@[simp] theorem control_emit (f : Frame) : (s.emit f).control = s.control :=
  s.control_ite _ rfl (s.control_ite _ (by simp) (s.control_ite _ (by simp) (by simp)))

theorem control_pump (fuel : Nat) : ∀ s : State, (pump fuel s).control = s.control := by
  induction fuel with
  | zero => exact fun _ => rfl
  | succ fuel ih =>
    intro s
    unfold pump
    split
    · rfl
    · exact s.control_ite _ rfl ((ih _).trans (by simp))

@[simp] theorem control_sendFrame (type step : Nat) (payload : List Byte) : (s.sendFrame type step payload).control = s.control :=
  s.control_ite _ (by simp) (s.control_ite _ rfl (control_pump ..))

@[simp] theorem control_notice (cause : Nat) : (s.notice cause).control = s.control := s.control_ite _ rfl (by simp)

@[simp] theorem control_pairOff : s.pairOff.control = s.control := by
  unfold pairOff
  simp only [control_setCic, control_fset]
  refine (control_foldl _ _ _ fun t p => t.control_ite _ (by simp) rfl).trans (by simp)

@[simp] theorem control_pairReset : s.pairReset.control = s.control :=
  (control_eq rfl rfl rfl : s.pairReset.control = (s.notice 3).pairOff.control).trans (by simp)

end Sys2Proof.Machine.State
end

section
/-! Commands that complete: what leaving RUNNING does to the commands in progress (O48). -/
namespace Sys2Proof.Machine.State

/-- `t` has the lifecycle and the stream state of `s`, and in it only commands of `s` are in progress: some may have completed, or taken other
arguments. -/
def Follows (s t : State) : Prop := t.life = s.life ∧ t.str.st = s.str.st ∧ t.cmds.map Cmd.op ⊆ s.cmds.map Cmd.op

theorem Follows.trans {s t u : State} (h : s.Follows t) (h' : t.Follows u) : s.Follows u :=
  ⟨h'.1.trans h.1, h'.2.1.trans h.2.1, List.Subset.trans h'.2.2 h.2.2⟩

theorem follows_of_control {s t : State} (h : t.control = s.control) : s.Follows t := by
  have hc : t.cmds = s.cmds := congrArg (·.2.2) h
  exact ⟨congrArg (·.1) h, congrArg (·.2.1) h, by rw [hc]; exact List.Subset.refl _⟩

/-- A change that leaves alone what `Follows` looks at may come after. -/
theorem Follows.control {s t u : State} (h : s.Follows t) (hu : u.control = t.control) : s.Follows u := h.trans (follows_of_control hu)

theorem Follows.refl (s : State) : s.Follows s := follows_of_control rfl

variable (s : State)

theorem follows_ite {a b : State} (c : Prop) [Decidable c] (ha : s.Follows a) (hb : s.Follows b) : s.Follows (if c then a else b) := by
  split <;> assumption

theorem follows_foldl {α : Type} (f : State → α → State) (l : List α) (h : ∀ (t : State) (a : α), t.Follows (f t a)) :
    s.Follows (l.foldl f s) :=
  List.foldlRecOn (motive := s.Follows) l f (Follows.refl s) fun t ht a _ => ht.trans (h t a)

theorem follows_cmds (cs : List Cmd) (h : cs.map Cmd.op ⊆ s.cmds.map Cmd.op) : s.Follows { s with cmds := cs } := ⟨rfl, rfl, h⟩

/-- Commands that take other arguments keep their opcodes. -/
theorem map_op_map (f : Cmd → Cmd) (h : ∀ d, (f d).op = d.op) (l : List Cmd) : (l.map f).map Cmd.op = l.map Cmd.op := by
  rw [List.map_map]
  exact List.map_congr_left fun d _ => h d

@[simp] theorem control_completion (c : Cmd) (st : Nat) (body : List Byte) : (s.completion c st body).control = s.control := control_send ..

/-- A command completes, and is no longer in progress. -/
theorem follows_completed (c : Cmd) (st : Nat) (body : List Byte) :
    s.Follows { (s.completion c st body) with cmds := s.cmds.filter fun d => d ≠ c } := by
  obtain ⟨hl, hs, _⟩ := follows_of_control (s.control_completion c st body)
  exact ⟨hl, hs, List.map_subset _ List.filter_sublist.subset⟩

theorem follows_complete (op st : Nat) (body : List Byte) : s.Follows (s.complete op st body) := by
  unfold complete
  split
  · exact Follows.refl s
  · exact s.follows_completed ..

theorem follows_finishReads : s.Follows s.finishReads := by
  unfold finishReads
  refine Follows.trans ⟨rfl, rfl, List.Subset.refl _⟩ (follows_foldl _ _ _ fun t r => ?_)
  split
  · split
    · exact Follows.refl t
    · next c _ =>
      rcases hr : t.memReadBody r with ⟨st, body, u⟩
      have hu : u.control = t.control := by simpa [hr] using t.control_memReadBody r
      exact (follows_of_control hu).trans (u.follows_completed c st body)
  · exact follows_of_control (control_answerRead ..)

theorem follows_drainHost : s.Follows s.drainHost := by
  refine Follows.trans (follows_of_control ?_) (follows_finishReads _)
  refine (control_serveAll _).trans ((control_pullPorts _).trans ?_)
  refine (control_ite _ _ rfl ?_).trans s.control_drainQueues
  exact (control_foldl _ _ _ fun t m => t.control_meshOut _).trans (control_eq rfl rfl rfl)

/-! ### Changes that wait for a boundary -/

@[simp] theorem control_setChState (c : Chan) (v : Nat) : (s.setChState c v).control = s.control := by cases c <;> exact control_fset ..
@[simp] theorem control_setChPending (c : Chan) (v : Nat) : (s.setChPending c v).control = s.control := by cases c <;> exact control_fset ..
@[simp] theorem control_setMocause (c : Chan) (v : Nat) : (s.setMocause c v).control = s.control := by cases c <;> exact control_fset ..

@[simp] theorem control_chmapApply (c : Chan) (action : Nat) : (s.chmapApply c action).2.control = s.control := by
  unfold chmapApply
  dsimp only
  split
  · simp
  · split
    · simp
    · split
      · simp only [control_setMocause, control_setChState]
        exact s.control_ite _ (by simp) (by simp)
      · split <;> simp

theorem follows_chmapPending : s.Follows s.chmapPending := by
  unfold chmapPending
  split
  · exact Follows.refl s
  · next cmd _ =>
    split
    · next kind action index _ =>
      rcases ha : s.chmapApply (chmapChan kind index) action with ⟨st, t⟩
      have ht : s.Follows t := follows_of_control (by simpa [ha] using s.control_chmapApply (chmapChan kind index) action)
      cases st with
      | some st => exact ht.trans (t.follows_complete ..)
      | none =>
        refine ht.trans (t.follows_cmds _ ?_)
        rw [map_op_map _ (fun d => by split <;> rfl)]
        exact List.Subset.refl _
    · exact Follows.refl s

theorem follows_refillPending : s.Follows s.refillPending := by
  unfold refillPending
  split
  · exact Follows.refl s
  · next c _ =>
    rcases hr : s.refillAll c.data with ⟨e, t⟩
    have ht : t.control = s.control := by simpa [hr] using s.control_refillAll c.data
    exact ((follows_of_control ht).trans (t.follows_complete ..)).control (control_eq rfl rfl rfl)

theorem follows_licenceApply : s.Follows s.licenceApply := by
  unfold licenceApply
  extract_lets t u v
  have hu : u.control = s.control := by simp [u, t]
  exact (follows_of_control (s.control_ite _ (by simp [hu]) hu)).trans (v.follows_complete ..)

@[simp] theorem control_portMode (cicada : Bool) : (s.portMode cicada).control = s.control := by
  refine s.control_foldl _ _ fun t p => t.control_ite _ rfl (t.control_ite _ (by simp) (by simp))

@[simp] theorem control_restartCic (keep : Bool) (b : PairBody) : (s.restartCic keep b).control = s.control :=
  s.control_ite _ (control_setCic ..) (control_eq rfl rfl rfl)

theorem follows_applyPair (b : PairBody) : s.Follows (s.applyPair b) := by
  unfold applyPair
  extract_lets c t u wasReplay v off keep w x y z p q r
  have hv : v.control = s.control := s.control_ite _ (by simp [u, t]) (by simp [u, t])
  have hw : w.control = s.control := s.control_ite _ (by simp [hv]) hv
  have hz : z.control = s.control := by simp [z, y, x, hw]
  have hq : q.control = s.control := by simp [q, p, hz]
  split
  · exact (follows_of_control hz).trans (z.follows_complete ..)
  · exact follows_of_control ((r.control_restartCic ..).trans (s.control_ite _ (by simp [hq]) hq))

theorem follows_pairPending : s.Follows s.pairPending := by
  unfold pairPending
  split
  · split
    · exact follows_applyPair s _
    · exact (follows_of_control (by simp)).trans (follows_complete ..)
  · exact Follows.refl s

theorem follows_pendingAtOnce : s.Follows s.pendingAtOnce := by
  unfold pendingAtOnce
  have h : s.Follows (if s.flag F.LIC_STAT_PEND then s.licenceApply else s) := s.follows_ite _ s.follows_licenceApply (Follows.refl s)
  exact (((h.trans (follows_chmapPending _)).trans (follows_refillPending _)).control (control_wvPending ..)).trans (follows_pairPending _)

end Sys2Proof.Machine.State
end

section
/-! Stream states entered, and what a warm reset leaves of lifecycle and commands (O48). -/
namespace Sys2Proof.Machine

namespace State

variable (s : State)

/-! ### Entering a stream state -/

@[simp] theorem control_mbxTake (p : MbxPend) : (s.mbxTake p).control = s.control := control_eq rfl rfl rfl
@[simp] theorem control_mbxAll : s.mbxAll.control = s.control := s.control_foldl _ _ control_mbxTake
@[simp] theorem control_mbxClear : s.mbxClear.control = s.control := control_eq rfl rfl rfl

@[simp] theorem control_endLease (k c n : Nat) : (s.endLease k c n).control = s.control := by
  unfold endLease
  dsimp only
  split
  · rfl
  · simp

@[simp] theorem control_endLeases : s.endLeases.control = s.control :=
  s.control_foldl _ _ fun t _ => t.control_ite _ (t.control_endLease ..) rfl

/-- R110, R112: entering a state changes nothing of the lifecycle; as RUNNING is left, commands that wait for a boundary complete. -/
theorem follows_enter (st : StreamState) : (s.setStr { s.str with st := st }).Follows (s.enter st) := by
  unfold enter
  extract_lets str was trapped t final want fresh u str' v w x y
  have hw : w.control = t.control := control_eq rfl rfl rfl
  have hx : x.control = t.control := t.control_ite _ (t.control_ite _ hw (w.control_endLeases.trans hw)) rfl
  have hy : y.control = t.control := t.control_ite _ ((x.control_rset ..).trans hx) hx
  refine t.follows_ite _ ?_ (follows_of_control (t.control_ite _ ((y.control_serveAll).trans hy) hy))
  have ha : t.Follows y.mbxAll.pendingAtOnce := (follows_of_control ((y.control_mbxAll).trans hy)).trans (follows_pendingAtOnce _)
  exact (ha.trans (follows_drainHost _)).control (control_serveAll _)

/-- What remains of an entry: the state entered, the lifecycle, and no new commands. -/
theorem enter_spec (st : StreamState) :
    (s.enter st).life = s.life ∧ (s.enter st).str.st = st ∧ (s.enter st).cmds.map Cmd.op ⊆ s.cmds.map Cmd.op := s.follows_enter st

/-! ### A Molt and a logic BIST broken off -/

theorem bbrPut_cmds (e : BbrEntry) : (s.bbrPut e).cmds = s.cmds := by
  obtain ⟨r, q, b, m, h, _⟩ := s.reported_bbrPut e
  rw [h]

theorem fuseWrite_cmds (h i r : Nat) (bad : Bool) : (s.fuseWrite h i r bad).1.cmds = s.cmds := by
  unfold fuseWrite
  exact bbrPut_cmds ..

theorem markFused_cmds (h r : Nat) : (s.markFused h r).cmds = s.cmds := by
  unfold markFused
  dsimp only
  split
  · rfl
  · split
    · rfl
    · split
      · rw [rset_cmds]
      · rfl

theorem commitOne_cmds (h : Nat) (bad : List Nat) (p : State × Nat × Nat) (r : Nat) : (commitOne h bad p r).1.cmds = p.1.cmds := by
  obtain ⟨s, w, full⟩ := p
  unfold commitOne
  extract_lets try_
  have ht : ∀ {s t : State} {ok : Bool}, try_ s = some (t, ok) → t.cmds = s.cmds := by
    intro s t ok ht
    simp only [try_, Option.ite_none_left_eq_some] at ht
    obtain ⟨_, ht⟩ := ht
    obtain rfl : _ = t := congrArg (·.1) (Option.some.inj ht)
    split
    · exact fuseWrite_cmds ..
    · exact (markFused_cmds ..).trans (fuseWrite_cmds ..)
  dsimp only
  split
  · rfl
  · next h1 => exact ht h1
  · next h1 =>
    split
    · exact ht h1
    · next h2 => exact (ht h2).trans (ht h1)

theorem commitBreak_cmds (m : Molt) : (s.commitBreak m).cmds = s.cmds := by
  unfold commitBreak
  split
  · rfl
  · dsimp only
    have hf (l : List Nat) (t : State) : (l.foldl (commitOne m.half []) (t, 0, 0)).1.cmds = t.cmds :=
      foldl_keeps (fun p => p.1.cmds) _ l (t, 0, 0) fun p r _ => commitOne_cmds m.half [] p r
    split
    · exact hf _ _
    · split
      · exact hf _ _
      · split
        · exact hf _ _
        · exact hf _ _
        · exact hf _ _
        · exact (markFused_cmds ..).trans (hf _ _)

theorem breakMolt_cmds : s.breakMolt.cmds = s.cmds := by
  unfold breakMolt
  split
  · rfl
  · exact commitBreak_cmds ..

theorem breakLbist_spec : s.breakLbist.cmds = s.cmds ∧ s.breakLbist.life.lbist = none := by
  unfold breakLbist
  split
  · next h => exact ⟨rfl, h⟩
  · exact ⟨rfl, rfl⟩

/-! ### A warm reset -/

theorem control_with_wvl (w : List (Nat × Wvl)) : ({ s with wvl := w } : State).control = s.control := control_eq rfl rfl rfl

@[simp] theorem control_dropPending : s.dropPending.control = s.control :=
  (control_setCic ..).trans ((control_with_wvl ..).trans (s.control_foldl _ _ fun t c => t.control_setChPending c 0))

@[simp] theorem control_gateChange : s.gateChange.control = s.control := by
  unfold gateChange
  exact s.control_ite _ rfl (s.control_ite _ (by simp) (by simp))

@[simp] theorem control_wvReset : s.wvReset.control = s.control := control_eq rfl rfl rfl
@[simp] theorem control_zeroScratch (n : Nat) : (s.zeroScratch n).control = s.control := control_eq rfl rfl rfl
@[simp] theorem control_freshStks : s.freshStks.control = s.control := control_eq rfl rfl rfl
@[simp] theorem control_clearCache : s.clearCache.control = s.control := control_eq rfl rfl rfl
@[simp] theorem control_warmArr : s.warmArr.control = s.control := s.control_foldl _ _ fun t _ => t.control_rset ..

theorem op_of_mem_resetCmds {op : Nat} {c : Cmd} (h : c ∈ (s.resetCmds op).cmds) : c.op = op := by
  simpa using (List.mem_filter.mp h).2

/-- R520: cores, lines in the mesh and attention engines are empty. -/
theorem control_with_cores (c : List (Nat × Core)) (f : List Flight) (p : List (Nat × SPort)) (a : List (Nat × Sae)) (b : Bool) :
    ({ s with cores := c, flights := f, sports := p, sae := a, saeLapse := b } : State).control = s.control := control_eq rfl rfl rfl

/-- An interrupted Molt leaves its last status. -/
theorem control_match_molt (o : Option Molt) (p : Molt → Prop) [DecidablePred p] :
    (match o with
      | some m => if p m then s else s.fset F.MLT_STAT_LASTST m.half 0 ST.RESET
      | none => s).control = s.control := by
  cases o with
  | none => rfl
  | some m => exact s.control_ite _ rfl (control_fset ..)

/-- No logic BIST runs, and of the commands in progress only `cs` are left. -/
def Ended (cs : List Cmd) (s : State) : Prop := s.life.lbist = none ∧ s.cmds.map Cmd.op ⊆ cs.map Cmd.op

theorem Ended.follows {cs : List Cmd} {s t : State} (h : Ended cs s) (ht : s.Follows t) : Ended cs t :=
  ⟨ht.1 ▸ h.1, List.Subset.trans ht.2.2 h.2⟩

theorem Ended.control {cs : List Cmd} {s t : State} (h : Ended cs s) (ht : t.control = s.control) : Ended cs t :=
  h.follows (follows_of_control ht)

theorem Ended.enter {cs : List Cmd} {s : State} (h : Ended cs s) (st : StreamState) : Ended cs (s.enter st) :=
  ⟨(s.enter_spec st).1 ▸ h.1, List.Subset.trans (s.enter_spec st).2.2 h.2⟩

theorem ended_breakLbist {cs : List Cmd} {s : State} (h : s.cmds.map Cmd.op ⊆ cs.map Cmd.op) : Ended cs s.breakMolt.breakLbist :=
  ⟨(breakLbist_spec _).2, by rw [(breakLbist_spec _).1, breakMolt_cmds]; exact h⟩

/-- R520, R522: a warm reset ends a logic BIST and every command in progress but its own; then stream and side channels are fresh, and the
reset is in progress. -/
theorem warmBegin_eq : ∃ (t : State) (m : Option Molt), Ended (s.resetCmds OP.WARM_RESET).cmds t ∧
    s.warmBegin = { t with str := { ({} : Stream) with present := t.str.present }, sch := [], life := { t.life with warm := true, molt := m } } := by
  refine ⟨_, _, ?_, rfl⟩
  refine Ended.control ?_ ((control_gateChange _).trans (control_fset ..))
  refine Ended.control ?_ ((control_warmArr _).trans (control_foldl _ _ _ control_rclear))
  refine Ended.control ?_ ((control_clearCache _).trans (control_freshStks _))
  refine Ended.control ?_ ((control_foldl _ _ _ fun t n => t.control_zeroScratch n).trans (control_with_cores ..))
  refine Ended.control ?_ ((control_pairReset _).trans ((control_wvReset _).trans (control_mbxClear _)))
  refine Ended.enter (Ended.control ?_ ((control_endLeases _).trans (control_match_molt ..))) .idle
  refine ended_breakLbist (Follows.trans (follows_of_control (control_dropPending _)) ?_).2.2
  exact follows_ite _ _ (follows_licenceApply _) (Follows.refl _)

theorem warmBegin_cmds {c : Cmd} (h : c ∈ s.warmBegin.cmds) : c.op = OP.WARM_RESET := by
  obtain ⟨t, m, ⟨_, hc⟩, e⟩ := s.warmBegin_eq
  rw [e] at h
  obtain ⟨d, hd, hop⟩ := List.mem_map.mp (hc (List.mem_map_of_mem h))
  rw [← hop]
  exact s.op_of_mem_resetCmds hd

theorem warmBegin_idle : s.warmBegin.life.warm = true ∧ s.warmBegin.str.st = .idle ∧ s.warmBegin.str.pendingMbx = [] ∧ s.warmBegin.sch = [] ∧
    s.warmBegin.life.lbist = none := by
  obtain ⟨t, m, ⟨hl, _⟩, e⟩ := s.warmBegin_eq
  rw [e]
  exact ⟨rfl, rfl, rfl, rfl, hl⟩

end State
end Sys2Proof.Machine
end

section
/-! Warm resets and the PLL unlock (O48). -/
namespace Sys2Proof.Machine

namespace State

variable (s : State)

/-! ### The state in which a command's body is acted on -/

theorem taken_life (h : EcpHdr) : (s.taken h).life = s.life := by
  unfold taken
  rw [bump_life]
  split
  · exact s.ceMark_life _
  · rfl

/-- Taking a command counts in its queue pair's and its port's counters only. -/
theorem rget_taken (h : EcpHdr) (r : Reg) (i k : Nat) (hq : r.addr i k ≠ Reg.addr .ECP_CMDCNT h.qp 0)
    (hp : ∀ p < 8, r.addr i k ≠ Reg.addr .ETH_CNPCNT p 0) : (s.taken h).rget r i k = s.rget r i k := by
  unfold taken
  rw [rget_bump_ne _ F.ECP_CMDCNT_ACCEPTED _ _ _ _ _ _ hq]
  split
  · exact s.ceMark_rget _ r i k hp
  · rfl

theorem taken_shutLatch (h : EcpHdr) : (s.taken h).flag F.PWR_SHUT_LATCH = s.flag F.PWR_SHUT_LATCH := by
  have ha : Reg.addr .PWR_SHUT 0 0 = 0x7F0020000028 := Reg.addr_global _ 2 0x28 8 rfl rfl rfl rfl 0 0
  have hc : Reg.addr .ECP_CMDCNT h.qp 0 = 0x7F0121000020 + h.qp * 0x10000 := by
    rw [Reg.addr_local _ 18 0x20 8 rfl rfl rfl rfl]; omega
  have hr : (s.taken h).rget .PWR_SHUT = s.rget .PWR_SHUT :=
    s.rget_taken h .PWR_SHUT 0 0 (by rw [ha, hc]; omega) fun p _ => by rw [ha, addr_cnpcnt]; omega
  unfold flag fget
  rw [hr]

/-! ### The end of a warm reset -/

/-- A COMPLETION leaves lifecycle, memory, stream and cores as they are. -/
theorem complete_keeps (op st : Nat) : (s.complete op st).life = s.life ∧ (s.complete op st).mem = s.mem ∧ (s.complete op st).str = s.str ∧
    (s.complete op st).cores = s.cores := by
  unfold complete
  split
  · exact ⟨rfl, rfl, rfl, rfl⟩
  · exact ⟨send_life .., send_mem .., send_str .., send_cores ..⟩

/-- R522: with no Molt to run again the end of a warm reset is the completion of its command alone. -/
theorem warmDone_spec (hm : s.life.molt = none) : s.warmDone.life.warm = false ∧ s.warmDone.life.warmN = true ∧ s.warmDone.mem = s.mem ∧
    s.warmDone.str = s.str ∧ s.warmDone.cores = s.cores := by
  obtain ⟨hl, hmem, hstr, hcores⟩ := complete_keeps { s with life := { s.life with warm := false, warmN := true } } OP.WARM_RESET ST.OK
  unfold warmDone
  dsimp only
  split
  · next m h =>
    rw [hl] at h
    exact absurd (h.symm.trans hm) (Option.some_ne_none m)
  · exact ⟨by rw [hl], by rw [hl], hmem, hstr, hcores⟩

/-! ### A PLL that loses lock -/

/-- R46, R110: from every state the stream comes to FAULTED, and the lifecycle stays. -/
theorem toFaulted_spec : s.toFaulted.life = s.life ∧ s.toFaulted.str.st = .faulted := by
  unfold toFaulted
  split
  · next h => exact ⟨rfl, h⟩
  · exact ⟨(s.enter_spec .faulted).1, (s.enter_spec .faulted).2.1⟩

end State

theorem exec_warmReset_takes (s : State) (h : EcpHdr) (hh : s.hearsReset h.qp = true) (ht : Takes s h OP.WARM_RESET GRP_REPAIR false true)
    (hl : s.flag F.PWR_SHUT_LATCH = false) :
    exec (.warmReset h) s = .next (s.finish (if s.life.unlocked then (s.taken h).answer h OP.WARM_RESET GRP_REPAIR [] [] (some (ST.CLOCK, []))
      else (s.taken h).warmBegin.answer h OP.WARM_RESET GRP_REPAIR [] [] none)) := by
  rw [exec_warmReset, execWarmReset, s.when_true _ _ hh, s.ecp_takes h _ _ _ _ _ _ _ ht, s.taken_shutLatch h, hl, s.taken_life h]
  cases s.life.unlocked <;> simp

theorem exec_warmResetPin_begins (s : State) (hr : s.ready = true) (hn : s.life.warmN = true) (hu : s.life.unlocked = false)
    (hw : s.life.warm = false) : exec .warmResetPin s = .next (s.finish { s with life := { s.life with warmN := false } }.warmBegin) := by
  rw [exec_warmResetPin, execWarmResetPin, s.when_true _ _ (by simp [hr, hn, hu])]
  simp [hw]

theorem exec_warmResetPin_unlocked (s : State) (hu : s.life.unlocked = true) : exec .warmResetPin s = .next s := by
  rw [exec_warmResetPin, execWarmResetPin, s.when_false _ _ (by simp [hu])]

/-- Settles O48: what a warm reset leaves by the frame of everything that the stream's leaving RUNNING does, which neither touches the lifecycle
nor adds a command; a PLL unlock by the entry of FAULTED. -/
theorem warmResetsLeaveTheStreamIdle : Obligations.WarmResetsLeaveTheStreamIdle := by
  refine ⟨fun s h hh ht => ⟨fun hl hu => ?_, fun hl hu => ?_⟩, fun s => ⟨fun hr hn hu hw => ?_, exec_warmResetPin_unlocked s,
    fun hw ha hp hm => ?_, fun half ha hp hb hl => ?_⟩⟩
  · rw [exec_warmReset_takes s h hh ht hl, if_pos hu]
  · obtain ⟨hwarm, hidle, _⟩ := (s.taken h).warmBegin_idle
    refine ⟨?_, hwarm, hidle, fun c hc => (s.taken h).warmBegin_cmds hc⟩
    rw [exec_warmReset_takes s h hh ht hl, if_neg (by simp [hu])]
  · refine ⟨_, exec_warmResetPin_begins s hr hn hu hw, ?_⟩
    simpa using State.warmBegin_idle _
  · refine ⟨s.finish s.warmDone, ?_, by simpa using s.warmDone_spec hm⟩
    rw [exec_warmResetDone, execWarmResetDone, s.when_true _ _ (by simp [hw, ha, hp])]
  · refine ⟨_, by rw [exec_pllUnlock, execPllUnlock, s.when_true _ _ (by simp [ha, hp, hb, hl])], fun _ => ?_, _, rfl, ?_⟩
    · obtain ⟨hlife, hst⟩ := State.toFaulted_spec { s with life := { s.life with unlocked := true, stopped := half.val :: s.life.stopped } }
      simp [hlife, hst]
    · simp [State.raise]

end Sys2Proof.Machine
end

section
/-! Remapped rows: the last row in use and the deskew delays, and a write of ARR_ROWMAP (O24). -/
namespace Sys2Proof.Machine

/-! ### The deskew buffers (R163) -/

/-- A list of numbers that rises strictly has at each place at least that place's number. -/
theorem le_getElem_of_pairwise_lt {l : List Nat} (h : l.Pairwise (· < ·)) : ∀ (i : Nat) (hi : i < l.length), i ≤ l[i] := by
  intro i
  induction i with
  | zero => exact fun _ => Nat.zero_le _
  | succ i ih =>
    intro hi
    have hlt : l[i] < l[i + 1] := List.pairwise_iff_getElem.mp h i (i + 1) (Nat.lt_of_succ_lt hi) hi (Nat.lt_succ_self i)
    exact Nat.succ_le_of_lt (Nat.lt_of_le_of_lt (ih (Nat.lt_of_succ_lt hi)) hlt)

/-- The rows in use, as `lastRow` lists them, rise strictly. -/
theorem rowsInUse_pairwise_lt (failed : List Nat) : ((List.range 66).filter fun r => !failed.contains r).Pairwise (· < ·) :=
  List.Pairwise.filter _ List.pairwise_lt_range

/-- Rows out of use only push the 64th row in use up, into the two spares at most; where no 64 rows are in use, `lastRow` answers 65. -/
theorem lastRow_bounds (failed : List Nat) : 63 ≤ lastRow failed ∧ lastRow failed ≤ 65 := by
  unfold lastRow
  by_cases h : 63 < ((List.range 66).filter fun r => !failed.contains r).length
  · have hlo := le_getElem_of_pairwise_lt (rowsInUse_pairwise_lt failed) 63 h
    have hhi := List.mem_range.mp (List.mem_filter.mp (List.getElem_mem h)).1
    rw [List.getElem?_eq_getElem h, Option.getD_some]
    exact ⟨hlo, Nat.le_of_lt_succ hhi⟩
  · rw [List.getElem?_eq_none (Nat.le_of_not_lt h), Option.getD_none]
    exact ⟨by decide, Nat.le_refl 65⟩

/-- A sum's way down the rows, across the columns and through its deskew buffer is of one length for all columns. -/
theorem deskewOf_aligns (failed : List Nat) {c : Nat} (hc : c < 64) : lastRow failed + 1 + c + deskewOf failed c = 129 := by
  obtain ⟨hlo, hhi⟩ := lastRow_bounds failed
  unfold deskewOf
  omega

/-! ### A write of ARR_ROWMAP (R181) -/

namespace State

theorem rowmapWrite_taken (s : State) (n : Nat) {v : Nat} (hl : s.locked = false) (hr : ∀ r ∈ rowmapFailed v, r ≤ 65)
    (hd : (rowmapFailed v).Nodup) : s.rowmapWrite n v = (ST.OK, s.rset .ARR_ROWMAP n 0 (v % 2 ^ 16)) := by
  have hany : (rowmapFailed v).any (fun r => 65 < r) = false := by simpa using hr
  unfold rowmapWrite
  exact if_neg (by simp [hl, hany, hd])

theorem rowmapWrite_dropped (s : State) (n : Nat) {v : Nat}
    (h : s.locked = true ∨ (∃ r ∈ rowmapFailed v, 65 < r) ∨ ¬ (rowmapFailed v).Nodup) : s.rowmapWrite n v = (ST.LOCKED, s) := by
  unfold rowmapWrite
  exact if_pos (by simpa using h)

theorem rowmapWrite_wrote (s : State) (n v : Nat) : s.Wrote (s.rowmapWrite n v).2 [Reg.addr .ARR_ROWMAP n 0] := by
  unfold rowmapWrite
  dsimp only
  split
  · exact Wrote.refl s _
  · exact wrote_rset s .ARR_ROWMAP n 0 _ (List.mem_singleton_self _)

end State

theorem execArrRowmapWrite_eq (s : State) (core : Fin 1024) (v : BitVec 64) (hq : Quiet s) (hs : s.ready = true) :
    exec (.arrRowmapWrite core v) s = .next (s.rowmapWrite core v.toNat).2 := by
  rw [exec_arrRowmapWrite, execArrRowmapWrite, s.when_true _ _ hs, (s.rowmapWrite_wrote core v.toNat).finish_eq hq]

/-- Settles O24: a write of ARR_ROWMAP is one register write or none, and a sum waits in its deskew buffer for what its way lacks of 129. -/
theorem rowmapsAndDeskewFollowTheirRows : Obligations.RowmapsAndDeskewFollowTheirRows := by
  refine ⟨fun s core v hq hs => ?_, fun failed c _ hc => deskewOf_aligns failed hc⟩
  obtain ⟨hframe, hkept⟩ := s.rowmapWrite_wrote core v.toNat
  refine ⟨_, execArrRowmapWrite_eq s core v hq hs, hframe, hkept, fun hl hr hd => ?_, fun h => ?_⟩
  · rw [s.rowmapWrite_taken core hl hr hd, State.rget_rset_same]
    omega
  · rw [s.rowmapWrite_dropped core h]

end Sys2Proof.Machine
end

section
/-! Work on a core's scratch: what it leaves as it was, and what a write of poison leaves poisoned (O27). -/
namespace Sys2Proof.Machine

/-! ### Registers that work on scratch leaves alone -/

/-- The registers that the units of core `n` count and record in as they work on its scratch. -/
def workRegs (n : Nat) : List Nat :=
  [Reg.addr .COR_SCRCORR n 0, Reg.addr .COR_ERRADDR n 0, Reg.addr .COR_ERRSTAT n 0, Reg.addr .COR_ERRCNT n 0,
    Reg.addr .COR_RESCNT n 0, Reg.addr .COR_GRESCNT 0 0, Reg.addr .COR_RESLOG0 n 0, Reg.addr .COR_RESLOG1 n 0,
    Reg.addr .KVP_ERRADDR n 0, Reg.addr .KVP_ERRSTAT n 0, Reg.addr .KVP_ERRCNT n 0]

/-- The registers of the page books and of the job list, and a core's own status. -/
def Reg.Books (r : Reg) : Prop :=
  r.info.glob = false ∧ (r.info.blk = 14 ∧ r.info.off < 0x60 ∨ r.info.blk = 5 ∧ r.info.off = 0)

theorem Reg.addr_inst (r : Reg) (h : r.info.glob = false) (i : Nat) :
    r.addr i 0 = 0x7F0001000000 + r.info.blk * 0x10000000 + r.info.off + i * 0x10000 := by
  rw [Reg.addr_local r _ _ _ rfl rfl rfl h, Nat.zero_mul, Nat.add_zero]

theorem Reg.addr_glob (r : Reg) (h : r.info.glob = true) (i : Nat) : r.addr i 0 = 0x7F0000000000 + r.info.blk * 0x10000000 + r.info.off := by
  rw [Reg.addr_global r _ _ _ rfl rfl rfl h, Nat.zero_mul, Nat.add_zero]

theorem Reg.Books.not_mem_reportRegs {r : Reg} (h : r.Books) {i : Nat} (hi : i < 1024) : r.addr i 0 ∉ reportRegs := by
  obtain ⟨hg, hb⟩ := h
  rw [r.addr_inst hg]
  generalize r.info.blk = blk at hb ⊢
  generalize r.info.off = off at hb ⊢
  simp only [reportRegs, List.mem_cons, List.mem_map, List.mem_range,
    Reg.addr_glob .SYS_EVLOST rfl, Reg.addr_glob .BBR_PENDING rfl, Reg.addr_glob .BBR_QSTAT rfl, Reg.addr_inst .ECP_EVLOST rfl, Reg.info]
  omega

theorem Reg.Books.not_mem_workRegs {r : Reg} (h : r.Books) {i n : Nat} (hi : i < 1024) (hn : n < 1024) : r.addr i 0 ∉ workRegs n := by
  obtain ⟨hg, hb⟩ := h
  rw [r.addr_inst hg]
  generalize r.info.blk = blk at hb ⊢
  generalize r.info.off = off at hb ⊢
  simp only [workRegs, List.mem_cons, List.not_mem_nil, or_false, Reg.addr_glob .COR_GRESCNT rfl,
    Reg.addr_inst .COR_SCRCORR rfl, Reg.addr_inst .COR_ERRADDR rfl, Reg.addr_inst .COR_ERRSTAT rfl, Reg.addr_inst .COR_ERRCNT rfl,
    Reg.addr_inst .COR_RESCNT rfl, Reg.addr_inst .COR_RESLOG0 rfl, Reg.addr_inst .COR_RESLOG1 rfl, Reg.addr_inst .KVP_ERRADDR rfl,
    Reg.addr_inst .KVP_ERRSTAT rfl, Reg.addr_inst .KVP_ERRCNT rfl, Reg.info]
  omega

namespace State

/-- A byte reads from memory and from the ranges that are undefined. -/
theorem byte_congr {s t : State} (hm : t.mem = s.mem) (hu : t.undef = s.undef) (a : Nat) : t.byte a = s.byte a := by
  unfold byte
  rw [hm, hu]

/-! ### Work on scratch -/

/-- `t` is what work on the scratch of core `n` makes of `s`: engines and stream stay, every byte beside that scratch stays, and of the
registers only those that such work counts and records in read otherwise. -/
structure Works (n : Nat) (s t : State) : Prop where
  sae : t.sae = s.sae
  str : t.str = s.str
  regs : RegsKept s t (workRegs n)
  byte : ∀ a, a < scratchAddr n 0 ∨ scratchAddr n 0x180000 ≤ a → t.byte a = s.byte a

variable {n : Nat} {s t u : State}

theorem Works.refl (n : Nat) (s : State) : Works n s s := ⟨rfl, rfl, RegsKept.refl s _, fun _ _ => rfl⟩

theorem Works.trans (h : Works n s t) (h' : Works n t u) : Works n s u :=
  ⟨h'.sae.trans h.sae, h'.str.trans h.str, h.regs.trans h'.regs, fun a ha => (h'.byte a ha).trans (h.byte a ha)⟩

theorem Works.rget (h : Works n s t) (hn : n < 1024) {r : Reg} (hr : r.Books) {i : Nat} (hi : i < 1024) : t.rget r i = s.rget r i :=
  h.regs r i 0 (hr.not_mem_workRegs hi hn) (hr.not_mem_reportRegs hi)

theorem Works.fget (h : Works n s t) (hn : n < 1024) {f : Fld} (hf : f.reg.Books) {i : Nat} (hi : i < 1024) : t.fget f i = s.fget f i := by
  unfold State.fget
  rw [h.rget hn hf hi]

theorem Works.failed (h : Works n s t) (hn : n < 1024) : t.failed n = s.failed n := by
  unfold State.failed flag
  rw [h.fget hn (by unfold Reg.Books; decide) hn]

/-- A change of no register, no byte, no engine and not of the stream. -/
theorem works_of_eq (n : Nat) (hsae : t.sae = s.sae) (hstr : t.str = s.str) (hregs : t.regs = s.regs) (hmem : t.mem = s.mem)
    (hundef : t.undef = s.undef) : Works n s t :=
  ⟨hsae, hstr, regsKept_of_regs_eq (RegsKept.refl s _) hregs, fun a _ => byte_congr hmem hundef a⟩

theorem works_rset (s : State) (n : Nat) {r : Reg} {i k : Nat} (v : Nat) (h : r.addr i k ∈ workRegs n) : Works n s (s.rset r i k v) :=
  ⟨rfl, rfl, regsKept_rset s r i k v h, fun a _ => byte_congr rfl rfl a⟩

theorem works_ite (c : Prop) [Decidable c] (ht : Works n s t) (hu : Works n s u) : Works n s (if c then t else u) := by
  split <;> assumption

theorem works_foldl {α : Type} (f : State → α → State) (l : List α) (s : State) (h : ∀ t, ∀ a ∈ l, Works n t (f t a)) :
    Works n s (l.foldl f s) :=
  List.foldlRecOn (motive := Works n s) l f (Works.refl n s) fun t ht a ha => ht.trans (h t a ha)

theorem works_bump (s : State) (n : Nat) {f : Fld} {i k : Nat} (v : Nat) (h : f.reg.addr i k ∈ workRegs n) : Works n s (s.bump f i k v) :=
  works_ite _ (Works.refl n s) (works_rset s n _ h)

theorem works_firstErr (s : State) {n : Nat} {ar sr cr : Reg} (ha : ar.addr n 0 ∈ workRegs n) (hs : sr.addr n 0 ∈ workRegs n)
    (hc : cr.addr n 0 ∈ workRegs n) (a v : Nat) : Works n s (s.firstErr ar sr cr n a v) := by
  have hset (t : State) (a v : Nat) : Works n t ((t.rset ar n 0 a).rset sr n 0 v) := (works_rset t n a ha).trans (works_rset _ n v hs)
  unfold firstErr
  extract_lets a key t
  have ht : Works n s t := works_of_eq n rfl rfl rfl rfl rfl
  split
  · exact (ht.trans (hset t a (v + 1))).trans (works_of_eq n rfl rfl rfl rfl rfl)
  · have hcnt := ht.trans (works_rset t n (min (t.rget cr n + 1) (2 ^ 64 - 1)) hc)
    exact works_ite _ (hcnt.trans (hset _ a (v + 1))) hcnt

theorem works_errCOR (s : State) (n a st c : Nat) : Works n s (s.errCOR n a st c) :=
  s.works_firstErr (by simp [workRegs]) (by simp [workRegs]) (by simp [workRegs]) ..

theorem works_errKVP (s : State) (n a st c : Nat) : Works n s (s.errKVP n a st c) :=
  s.works_firstErr (by simp [workRegs]) (by simp [workRegs]) (by simp [workRegs]) ..

theorem works_raise (s : State) (n : Nat) (e : Ev) (u b c v h : Nat) : Works n s (s.raise e u b c v h) :=
  works_of_eq n rfl rfl rfl rfl rfl

theorem works_noteWrite (s : State) (n a : Nat) : Works n s (s.noteWrite a) :=
  works_ite _ (works_of_eq n rfl rfl rfl rfl rfl) (Works.refl n s)

theorem works_reveal (n : Nat) (l : Line) : ∀ s : State, Works n s (s.reveal l).2 := by
  induction l with
  | nil => exact Works.refl n
  | cons b l ih =>
    intro s
    cases b with
    | none =>
      have h : Works n s { s with free := s.free + 1 } := works_of_eq n rfl rfl rfl rfl rfl
      exact h.trans (ih _)
    | some b => exact ih s

/-- R260: a mismatch of a call counts, is recorded and raised. -/
theorem works_residueHit (s : State) (h : ResHit) : Works h.core s (s.residueHit h) := by
  unfold residueHit
  extract_lets n t c v w
  have hb : Works n s ((s.bump F.COR_RESCNT_COUNT n 0 1).bump F.COR_GRESCNT_COUNT 0 0 1) :=
    (works_bump s n 1 (by simp [workRegs])).trans (works_bump _ n 1 (by simp [workRegs]))
  have ht : Works n s t := hb.trans (works_of_eq n rfl rfl rfl rfl rfl)
  have hv : Works n t v := works_of_eq n rfl rfl rfl rfl rfl
  have hw : Works n v w := by
    refine works_ite _ (Works.refl n v) ?_
    have hmark : Works n v (v.w1cMark .COR_RESLOG1 n 0 (2 ^ 24)) := works_of_eq n rfl rfl rfl rfl rfl
    exact (hmark.trans (works_rset _ n _ (by simp [workRegs]))).trans (works_rset _ n _ (by simp [workRegs]))
  exact ((ht.trans hv).trans hw).trans (works_raise w n ..)

/-! ### Reads of scratch -/

theorem works_readScratch (s : State) (n : Nat) (off : Int) : Works n s (s.readScratch n off).2 := by
  have hw (t : State) (w : Nat) : Works n t (match (t.decodeWord 3 w []).2 with
      | .corr _ _ => t.bump F.COR_SCRCORR_COUNT n 0 1
      | .uncorr => t.errCOR n (32 * w) ST.UNCORR 2
      | _ => t) := by
    split
    · exact works_bump t n 1 (by simp [workRegs])
    · exact t.works_errCOR ..
    · exact Works.refl n t
  unfold readScratch
  split
  · exact s.works_errCOR ..
  · exact (hw _ _).trans (hw _ _)

/-- A fold that carries a result beside the state. -/
theorem works_foldl_snd {α β : Type} (f : β × State → α → β × State) (l : List α) (h : ∀ p a, Works n p.2 (f p a).2) (p : β × State) :
    Works n p.2 (l.foldl f p).2 :=
  List.foldlRecOn (motive := fun q => Works n p.2 q.2) l f (Works.refl n p.2) fun q hq a _ => hq.trans (h q a)

theorem works_scratchBytes (s : State) (n off len : Nat) : Works n s (s.scratchBytes n off len).2 := by
  unfold scratchBytes
  refine works_foldl_snd _ _ (fun p i => ?_) ([], s)
  exact p.2.works_readScratch ..

theorem works_scratchRows (s : State) (n off w k : Nat) : Works n s (s.scratchRows n off w k).2 := by
  unfold scratchRows
  split
  · exact Works.refl n s
  · exact s.works_scratchBytes ..

/-- The state after a call's operands are read: queries, new positions and the tree mask. -/
theorem attention_snd (s : State) (n : Nat) (j : Job) (g : Seg) : (s.attention n j g).2 =
    let u := ((s.scratchRows n j.q (128 * (if j.qfmt = 1 then Fmt.bf16 else Fmt.e4m3).width / 8) (j.g * j.nq)).2.scratchRows n j.new
      (128 * if g.bf16 then 4 else 2) j.nnew).2
    (if j.mask = 0xFFFFFFFF ∨ j.nnew = 0 then ([], u) else u.scratchRows n j.mask 8 j.nq).2 := rfl

theorem works_attention (s : State) (n : Nat) (j : Job) (g : Seg) : Works n s (s.attention n j g).2 := by
  rw [attention_snd]
  extract_lets u
  have hu : Works n s u := (s.works_scratchRows ..).trans (works_scratchRows ..)
  refine hu.trans ?_
  split
  · exact Works.refl n _
  · exact works_scratchRows ..

end State
end Sys2Proof.Machine
end

section
/-! Writes of scratch, and what a write of poison leaves poisoned (O27). -/
namespace Sys2Proof.Machine

/-- The poison mark of granule `g` of a code word after a write of the bytes `ens` of it, which `get` gives: a granule written wholly is
poisoned by its bytes alone, another keeps its mark or has `bad`, the old word being uncorrectable (R117). -/
def granMark (ens : List Nat) (get : Nat → PByte) (bad was : Bool) (g : Nat) : Bool :=
  let is := (List.range 8).map (8 * g + ·)
  let p := is.any fun i => ens.contains i && (get i).isNone
  if is.all ens.contains then p else (is.any ens.contains && p) || was || bad

/-- R155: a granule of which a poisoned byte is written is poisoned. -/
theorem granMark_of_enabled {ens : List Nat} {get : Nat → PByte} (hget : ∀ i, get i = none) (bad was : Bool) {g i : Nat} (hi : i < 8)
    (h : 8 * g + i ∈ ens) : granMark ens get bad was g = true := by
  have hany : ((List.range 8).map (8 * g + ·)).any ens.contains = true :=
    List.any_eq_true.mpr ⟨_, List.mem_map_of_mem (List.mem_range.mpr hi), by simpa using h⟩
  have hp : (((List.range 8).map (8 * g + ·)).any fun i => ens.contains i && (get i).isNone) = true := by
    simpa only [hget, Option.isNone_none, Bool.and_true] using hany
  unfold granMark
  extract_lets is p
  rw [show p = true from hp, show is.any ens.contains = true from hany]
  simp

/-- R154: a write of poison clears no mark. -/
theorem granMark_of_marked {ens : List Nat} {get : Nat → PByte} (hget : ∀ i, get i = none) (bad : Bool) (g : Nat) :
    granMark ens get bad true g = true := by
  by_cases hall : ((List.range 8).map (8 * g + ·)).all ens.contains = true
  · have h0 := List.all_eq_true.mp hall (8 * g + 0) (List.mem_map_of_mem (List.mem_range.mpr (by decide)))
    exact granMark_of_enabled (i := 0) hget bad true (by decide) (by simpa using h0)
  · unfold granMark
    extract_lets is p
    rw [if_neg hall]
    simp

namespace State

/-- The bytes of code word `k` of a line that a write enables. -/
def enabledOf (en : Nat → Bool) (k : Nat) : List Nat := (List.range 32).filter fun i => en (32 * k + i)

/-- The mark of one granule of word `w`. -/
def markGran (w : Nat) (ens : List Nat) (get : Nat → PByte) (bad : Bool) (s : State) (g : Nat) : State :=
  { s with gpois := smPut false s.gpois (gran (32 * w + 8 * g)) (granMark ens get bad (smGet false s.gpois (gran (32 * w + 8 * g))) g) }

/-- One code word of a write of a scratch line at `a`. -/
def writeWordAt (n a : Nat) (d : Line) (en : Nat → Bool) (s : State) (k : Nat) : State :=
  let w := a / 32 + k
  let ens := enabledOf en k
  let get (i : Nat) : PByte := (d[32 * k + i]?).getD none
  if ens = [] then s
  else
    let old := s.decodeWord 3 w []
    let bad := old.2 = .uncorr ∧ ens.length < 32
    let s := if bad then s.errCOR n (32 * w) ST.UNCORR 2 else s
    let s := s.putBytes (32 * w) ((List.range 32).map fun i => if ens.contains i then (get i).getD 0 else ((old.1[i]?).getD none).getD 0)
    (List.range 4).foldl (markGran w ens get (decide bad)) { s with syn := smPut 0 s.syn w 0 }

/-- A write of a line that the core has: its two code words. -/
theorem writeScratch_words (s : State) {n lo : Nat} (d : Line) (en : Nat → Bool) (hlo : lo < 0x180000) (hf : s.failed n = false) :
    s.writeScratch n lo d en = writeWordAt n (scratchAddr n (lo / 64 * 64)) d en
      (writeWordAt n (scratchAddr n (lo / 64 * 64)) d en (s.noteWrite (scratchAddr n (lo / 64 * 64))) 0) 1 := by
  have hc : ¬ ((lo : Int) < 0 ∨ 0x180000 ≤ (lo : Int) ∨ s.failed n = true) := by
    rw [hf]
    rintro (h | h | h)
    · omega
    · omega
    · cases h
  unfold writeScratch
  rw [if_neg hc]
  rfl

/-- A write of a line that the core does not have (R120). -/
theorem writeScratch_absent (s : State) {n : Nat} {off : Int} (d : Line) (en : Nat → Bool)
    (h : off < 0 ∨ 0x180000 ≤ off ∨ s.failed n = true) :
    s.writeScratch n off d en = s.errCOR n (scratchAddr n (unsext 21 off)) ST.ABSENT 3 := by
  unfold writeScratch
  exact if_pos h

/-- A write of a line is the write of its two code words, or an error where the core has no such line. -/
theorem writeScratch_cases (s : State) (n lo : Nat) (d : Line) (en : Nat → Bool) :
    (lo < 0x180000 ∧ s.writeScratch n lo d en = writeWordAt n (scratchAddr n (lo / 64 * 64)) d en
      (writeWordAt n (scratchAddr n (lo / 64 * 64)) d en (s.noteWrite (scratchAddr n (lo / 64 * 64))) 0) 1) ∨
    ∃ a st c, s.writeScratch n lo d en = s.errCOR n a st c := by
  by_cases h : (lo : Int) < 0 ∨ 0x180000 ≤ (lo : Int) ∨ s.failed n = true
  · exact .inr ⟨_, _, _, s.writeScratch_absent d en h⟩
  · obtain ⟨_, hhi, hf⟩ : ¬ (lo : Int) < 0 ∧ ¬ 0x180000 ≤ (lo : Int) ∧ ¬ s.failed n = true := by
      rwa [not_or, not_or] at h
    have hlo : lo < 0x180000 := by omega
    exact .inl ⟨hlo, s.writeScratch_words d en hlo (Bool.eq_false_iff.mpr hf)⟩

/-! ### Where a write of scratch reaches -/

theorem works_markGran (n w : Nat) (ens : List Nat) (get : Nat → PByte) (bad : Bool) (s : State) (g : Nat) :
    Works n s (markGran w ens get bad s g) := works_of_eq n rfl rfl rfl rfl rfl

/-- Bytes stored inside a core's scratch. -/
theorem works_putBytes (s : State) {n a : Nat} {bs : List Byte} (hlo : scratchAddr n 0 ≤ a) (hhi : a + bs.length ≤ scratchAddr n 0x180000) :
    Works n s (s.putBytes a bs) :=
  ⟨rfl, rfl, regsKept_of_regs_eq (RegsKept.refl s _) rfl, fun x hx => s.byte_putBytes_out a bs x (by omega)⟩

/-- The code words of a line of scratch. -/
theorem scratchWord_bounds {n lo k : Nat} (hlo : lo < 0x180000) (hk : k < 2) :
    scratchAddr n 0 ≤ 32 * (scratchAddr n (lo / 64 * 64) / 32 + k) ∧
    32 * (scratchAddr n (lo / 64 * 64) / 32 + k) + 32 ≤ scratchAddr n 0x180000 := by
  unfold scratchAddr
  omega

theorem works_writeWordAt (s : State) {n lo k : Nat} (d : Line) (en : Nat → Bool) (hlo : lo < 0x180000) (hk : k < 2) :
    Works n s (writeWordAt n (scratchAddr n (lo / 64 * 64)) d en s k) := by
  obtain ⟨hfrom, hto⟩ := scratchWord_bounds (n := n) hlo hk
  unfold writeWordAt
  extract_lets w ens get old bad t u
  refine works_ite _ (Works.refl n s) ?_
  have ht : Works n s t := works_ite _ (s.works_errCOR ..) (Works.refl n s)
  have hu : Works n t u := works_putBytes t hfrom (by simpa using hto)
  have hsyn : Works n u { u with syn := smPut 0 u.syn w 0 } := works_of_eq n rfl rfl rfl rfl rfl
  exact ((ht.trans hu).trans hsyn).trans (works_foldl _ _ _ fun v g _ => works_markGran n w ens get _ v g)

theorem works_writeScratch (s : State) (n lo : Nat) (d : Line) (en : Nat → Bool) : Works n s (s.writeScratch n lo d en) := by
  rcases s.writeScratch_cases n lo d en with ⟨hlo, e⟩ | ⟨a, st, c, e⟩ <;> rw [e]
  · exact ((s.works_noteWrite n _).trans (works_writeWordAt _ d en hlo (by decide))).trans (works_writeWordAt _ d en hlo (by decide))
  · exact s.works_errCOR ..

theorem works_scratchPut (s : State) (n off : Nat) (d : Line) : Works n s (s.scratchPut n off d) :=
  works_ite _ (Works.refl n s) (works_foldl _ _ s fun t _ _ => t.works_writeScratch ..)

/-! ### Poison written -/

/-- The granule of an address is poisoned. -/
def Poisoned (s : State) (a : Nat) : Prop := smGet false s.gpois (gran a) = true

theorem poisoned_congr {s t : State} (h : t.gpois = s.gpois) {a : Nat} (hs : s.Poisoned a) : t.Poisoned a := by
  unfold Poisoned
  rw [h]
  exact hs

section
variable {ens : List Nat} {get : Nat → PByte} (hget : ∀ i, get i = none)
include hget

theorem Poisoned.markGran {s : State} {a : Nat} (h : s.Poisoned a) (w : Nat) (bad : Bool) (g : Nat) :
    (markGran w ens get bad s g).Poisoned a := by
  unfold Poisoned State.markGran
  by_cases hg : gran a = gran (32 * w + 8 * g)
  · rw [hg, smGet_smPut_same, ← hg, show smGet false s.gpois (gran a) = true from h]
    exact granMark_of_marked hget bad g
  · rw [smGet_smPut_ne _ _ _ hg]
    exact h

theorem poisoned_markGran (s : State) (w : Nat) (bad : Bool) {g i : Nat} (hi : i < 8) (h : 8 * g + i ∈ ens) :
    (markGran w ens get bad s g).Poisoned (32 * w + (8 * g + i)) := by
  have hkey : gran (32 * w + (8 * g + i)) = gran (32 * w + 8 * g) := by unfold gran; omega
  unfold Poisoned State.markGran
  rw [hkey, smGet_smPut_same]
  exact granMark_of_enabled hget bad _ hi h

end

variable {n : Nat} {d : Line}

/-- A line of which every byte is poisoned. -/
def AllPoison (d : Line) : Prop := ∀ i : Nat, (d[i]?).getD none = none

theorem allPoison_replicate (k : Nat) : AllPoison (List.replicate k none) := by
  intro i
  rw [List.getElem?_replicate]
  split <;> rfl

/-- The line at `lo` of bytes written from `off`. -/
theorem AllPoison.slice (hd : AllPoison d) (off lo : Nat) :
    AllPoison ((List.range 64).map fun j => if off ≤ lo + j then (d[lo + j - off]?).getD none else none) := by
  have hbyte (j : Nat) : (if off ≤ lo + j then (d[lo + j - off]?).getD none else none) = none := by
    split
    · exact hd _
    · rfl
  simp only [hbyte, List.map_const', allPoison_replicate]

theorem Poisoned.writeWordAt {s : State} {a : Nat} (hd : AllPoison d) (b k : Nat) (en : Nat → Bool)
    (h : s.Poisoned a) : (writeWordAt n b d en s k).Poisoned a := by
  unfold State.writeWordAt
  extract_lets w ens get old bad t u
  split
  · exact h
  · have ht : t.gpois = s.gpois := by unfold t; split <;> simp [errCOR]
    exact List.foldlRecOn (motive := fun v : State => v.Poisoned a) _ _ (poisoned_congr ht h) fun v hv g _ =>
      hv.markGran (fun i => hd _) w _ g

theorem poisoned_writeWordAt (s : State) (hd : AllPoison d) {b k i : Nat} {en : Nat → Bool} (hi : i < 32) (he : en (32 * k + i) = true) :
    (writeWordAt n b d en s k).Poisoned (32 * (b / 32 + k) + i) := by
  have hmem : i ∈ enabledOf en k := List.mem_filter.mpr ⟨List.mem_range.mpr hi, he⟩
  unfold State.writeWordAt
  extract_lets w ens get old bad t u
  rw [if_neg (List.ne_nil_of_mem hmem)]
  have hget : ∀ i, get i = none := fun i => hd _
  have hsplit : i = 8 * (i / 8) + i % 8 := (Nat.div_add_mod i 8).symm
  have hset := foldl_establishes (fun g (v : State) => 8 * g + i % 8 ∈ ens → v.Poisoned (32 * w + (8 * g + i % 8)))
    (markGran w ens get (decide bad)) (List.range 4)
    (fun v g _ h => poisoned_markGran hget v w _ (Nat.mod_lt _ (by decide)) h) (fun v g _ c _ hv h => (hv h).markGran hget w _ c)
    { u with syn := smPut 0 u.syn w 0 } (i / 8) (List.mem_range.mpr (by omega))
  rw [← hsplit] at hset
  exact hset hmem

theorem Poisoned.writeScratch {s : State} {a : Nat} (hd : AllPoison d) (lo : Nat) (en : Nat → Bool) (h : s.Poisoned a) :
    (s.writeScratch n lo d en).Poisoned a := by
  rcases s.writeScratch_cases n lo d en with ⟨_, e⟩ | ⟨b, st, c, e⟩ <;> rw [e]
  · have hnote : (s.noteWrite (scratchAddr n (lo / 64 * 64))).gpois = s.gpois := by unfold noteWrite; split <;> rfl
    exact ((poisoned_congr hnote h).writeWordAt hd _ 0 en).writeWordAt hd _ 1 en
  · exact poisoned_congr (firstErr_gpois ..) h

/-- Poison written to byte `j` of a line poisons its granule. -/
theorem poisoned_writeScratch (s : State) (hd : AllPoison d) {lo j : Nat} {en : Nat → Bool} (hlo : 64 * lo < 0x180000)
    (hf : s.failed n = false) (hj : j < 64) (he : en j = true) :
    (s.writeScratch n (64 * lo : Nat) d en).Poisoned (scratchAddr n (64 * lo + j)) := by
  have haddr : ∀ k i, scratchAddr n (64 * lo + (32 * k + i)) = 32 * (scratchAddr n (64 * lo / 64 * 64) / 32 + k) + i := by
    intro k i
    unfold scratchAddr
    omega
  rw [s.writeScratch_words d en hlo hf]
  by_cases h : j < 32
  · have h0 := (haddr 0 j)
    rw [show 32 * 0 + j = j by omega] at h0
    rw [h0]
    exact (poisoned_writeWordAt _ hd h (by simpa using he)).writeWordAt hd _ 1 en
  · have h1 := (haddr 1 (j - 32))
    rw [show 32 * 1 + (j - 32) = j by omega] at h1
    rw [h1]
    exact poisoned_writeWordAt _ hd (by omega) (by rwa [show 32 * 1 + (j - 32) = j by omega])

/-- Of line `b` of scratch the bytes from `off` up to `off + k` are poisoned, unless the core has failed. -/
def LinePoisoned (n off k b : Nat) (t : State) : Prop :=
  t.failed n = false → ∀ j < 64, off ≤ 64 * b + j → 64 * b + j < off + k → t.Poisoned (scratchAddr n (64 * b + j))

/-- Poison written to a core's scratch, by lines, poisons the granule of every byte. -/
theorem poisoned_scratchPut (s : State) {off k : Nat} (hn : n < 1024) (hf : s.failed n = false) (hk : off + k ≤ 0x180000) {i : Nat} (hi : i < k) :
    (s.scratchPut n off (List.replicate k none)).Poisoned (scratchAddr n (off + i)) := by
  have hne : (List.replicate k none : Line) ≠ [] := by
    rw [Ne, List.replicate_eq_nil_iff]
    omega
  have hlen : (List.replicate k none : Line).length = k := List.length_replicate
  have hf' : (s.scratchPut n off (List.replicate k none)).failed n = false := ((s.works_scratchPut n off _).failed hn).trans hf
  have hline : ∀ b ∈ List.range ((off + k - 1) / 64 + 1 - off / 64),
      LinePoisoned n off k (off / 64 + b) (s.scratchPut n off (List.replicate k none)) := by
    unfold scratchPut
    rw [if_neg hne, hlen]
    extract_lets first last
    have hd (lo : Nat) := (allPoison_replicate k).slice off lo
    refine foldl_establishes (fun b => LinePoisoned n off k (first + b)) _ (List.range (last + 1 - first)) (fun t b hb hft j hj hlo hhi => ?_)
      (fun t b _ c _ ht hft j hj hlo hhi => ?_) s
    · have hb' := List.mem_range.mp hb
      refine poisoned_writeScratch t (hd _) (by omega) (((t.works_writeScratch ..).failed hn).symm.trans hft) hj ?_
      simp [hlo, hhi]
    · exact (ht (((t.works_writeScratch ..).failed hn).symm.trans hft) j hj hlo hhi).writeScratch (hd _) ..
  have hi' := hline ((off + i) / 64 - off / 64) (List.mem_range.mpr (by omega)) hf' ((off + i) % 64) (Nat.mod_lt _ (by decide))
  rw [show 64 * (off / 64 + ((off + i) / 64 - off / 64)) + (off + i) % 64 = off + i by omega] at hi'
  exact hi' (by omega) (by omega)

end State
end Sys2Proof.Machine
end

section
/-! The reserves of the page books refilled, and the end of an attention call (O27). -/
namespace Sys2Proof.Machine

/-! ### The mask of KV_REFILL -/

theorem getElem?_leBytes {n i : Nat} : ∀ x : Nat, i < n → (leBytes n x)[i]? = some (BitVec.ofNat 8 (x / 256 ^ i)) := by
  induction n generalizing i with
  | zero => exact fun _ h => absurd h (Nat.not_lt_zero i)
  | succ n ih =>
    intro x h
    cases i with
    | zero => simp [leBytes]
    | succ i =>
      rw [leBytes, List.getElem?_cons_succ, ih (x / 256) (Nat.lt_of_succ_lt_succ h), Nat.div_div_eq_div_mul, Nat.pow_succ']

/-- A bit of a number among its bytes. -/
theorem bitOf_leBytes {n i : Nat} (x : Nat) (h : i < 8 * n) : bitOf (leBytes n x) i = x.testBit i := by
  unfold bitOf
  rw [getElem?_leBytes x (by omega), Option.getD_some, BitVec.toNat_ofNat, Nat.testBit_mod_two_pow,
    show 256 ^ (i / 8) = 2 ^ (8 * (i / 8)) by rw [Nat.pow_mul], Nat.testBit_div_two_pow, show i % 8 + 8 * (i / 8) = i by omega,
    decide_eq_true (Nat.mod_lt _ (by decide)), Bool.true_and]

theorem bitOf_mask (mask : BitVec 1024) {n : Nat} (h : n < 1024) : bitOf (leBytes 128 mask.toNat) n = mask.getLsbD n :=
  bitOf_leBytes mask.toNat h

/-- Registers of the books of two cores, or two of the books of one core. -/
theorem Reg.Books.addr_ne {r r' : Reg} (h : r.Books) (h' : r'.Books) (hb : r.info.blk = r'.info.blk) {i j : Nat}
    (hne : i ≠ j ∨ r.info.off ≠ r'.info.off) : r.addr i 0 ≠ r'.addr j 0 := by
  obtain ⟨hg, ho⟩ := h
  obtain ⟨hg', ho'⟩ := h'
  rw [r.addr_inst hg, r'.addr_inst hg', hb]
  omega

namespace State

/-! ### The refill of one core (R255) -/

theorem books_free : Reg.Books .KVP_FREE := by unfold Reg.Books; decide
theorem books_reserve : Reg.Books .KVP_RESERVE := by unfold Reg.Books; decide
theorem books_stat : Reg.Books .KVP_STAT := by unfold Reg.Books; decide
theorem books_saejob : Reg.Books .KVP_SAEJOB := by unfold Reg.Books; decide

/-- A core's free list, reserve and status, of which the refill decides. -/
def poolRegs (n : Nat) (s : State) : List Nat := [s.rget .KVP_FREE n, s.rget .KVP_RESERVE n, s.rget .KVP_STAT n]

/-- The reserve of a core is gone, and its free list holds no page. -/
def Starves (n : Nat) (s : State) : Prop := s.flag F.KVP_STAT_RSVTAKEN n = true ∧ s.fget F.KVP_FREE_COUNT n = 0

/-- The reserve of a core is gone, and its free list holds a page. -/
def Refills (n : Nat) (s : State) : Prop := s.flag F.KVP_STAT_RSVTAKEN n = true ∧ s.fget F.KVP_FREE_COUNT n ≠ 0

/-- The head of the free list of core `n` in `s` is its reserve in `t`. -/
def Refilled (n : Nat) (s t : State) : Prop :=
  t.flag F.KVP_STAT_RSVTAKEN n = false ∧ t.flag F.KVP_RESERVE_VALID n = true ∧ t.fget F.KVP_RESERVE_PAGE n = s.fget F.KVP_FREE_HEAD n ∧
    t.fget F.KVP_FREE_COUNT n = s.fget F.KVP_FREE_COUNT n - 1

variable {n : Nat} {s t u : State}

theorem poolRegs_eq_iff : poolRegs n t = poolRegs n s ↔
    t.rget .KVP_FREE n = s.rget .KVP_FREE n ∧ t.rget .KVP_RESERVE n = s.rget .KVP_RESERVE n ∧ t.rget .KVP_STAT n = s.rget .KVP_STAT n := by
  simp [poolRegs]

/-- The fields of a core's pool are read from those registers. -/
theorem fields_of_poolRegs (h : poolRegs n t = poolRegs n s) : t.fget F.KVP_STAT_RSVTAKEN n = s.fget F.KVP_STAT_RSVTAKEN n ∧
    t.fget F.KVP_FREE_COUNT n = s.fget F.KVP_FREE_COUNT n ∧ t.fget F.KVP_FREE_HEAD n = s.fget F.KVP_FREE_HEAD n ∧
    t.fget F.KVP_RESERVE_VALID n = s.fget F.KVP_RESERVE_VALID n ∧ t.fget F.KVP_RESERVE_PAGE n = s.fget F.KVP_RESERVE_PAGE n := by
  obtain ⟨hfree, hres, hstat⟩ := poolRegs_eq_iff.mp h
  simp only [fget, hfree, hres, hstat, and_self]

theorem starves_congr (h : poolRegs n t = poolRegs n s) : Starves n t ↔ Starves n s := by
  obtain ⟨htaken, hcount, _⟩ := fields_of_poolRegs h
  unfold Starves flag
  rw [htaken, hcount]

theorem refills_congr (h : poolRegs n t = poolRegs n s) : Refills n t ↔ Refills n s := by
  obtain ⟨htaken, hcount, _⟩ := fields_of_poolRegs h
  unfold Refills flag
  rw [htaken, hcount]

theorem refilled_congr {s' t' : State} (hs : poolRegs n s' = poolRegs n s) (ht : poolRegs n t' = poolRegs n t) :
    Refilled n s' t' ↔ Refilled n s t := by
  obtain ⟨_, hcount, hhead, _⟩ := fields_of_poolRegs hs
  obtain ⟨htaken', hcount', _, hvalid', hpage'⟩ := fields_of_poolRegs ht
  unfold Refilled flag
  rw [hcount, hhead, htaken', hcount', hvalid', hpage']

theorem Works.poolRegs (h : Works n s t) (hn : n < 1024) {i : Nat} (hi : i < 1024) : poolRegs i t = poolRegs i s :=
  poolRegs_eq_iff.mpr ⟨h.rget hn books_free hi, h.rget hn books_reserve hi, h.rget hn books_stat hi⟩

/-- A write of another core's books. -/
theorem poolRegs_fset_other (s : State) {f : Fld} (hf : f.reg.Books) (hb : f.reg.info.blk = 14) {i n : Nat} (hne : i ≠ n) (v : Nat) :
    poolRegs i (s.fset f n 0 v) = poolRegs i s :=
  poolRegs_eq_iff.mpr ⟨rget_rset_ne _ _ _ _ _ _ _ _ (books_free.addr_ne hf hb.symm (.inl hne)),
    rget_rset_ne _ _ _ _ _ _ _ _ (books_reserve.addr_ne hf hb.symm (.inl hne)),
    rget_rset_ne _ _ _ _ _ _ _ _ (books_stat.addr_ne hf hb.symm (.inl hne))⟩

theorem works_pdesc (s : State) (n p : Nat) : Works n s (s.pdesc n p).2 := (s.works_scratchBytes ..).trans (works_reveal ..)

theorem works_setPdesc (s : State) (n p : Nat) (d : PDesc) : Works n s (s.setPdesc n p d) := by
  unfold setPdesc scratchPutNat
  exact s.works_scratchPut ..

/-- A core whose reserve is there stays as it is. -/
theorem refillCore_full (h : s.flag F.KVP_STAT_RSVTAKEN n = false) : s.refillCore n = (false, s) := by
  unfold refillCore
  exact if_pos (by rw [h]; rfl)

/-- A core with nothing to refill from stays as it is. -/
theorem refillCore_starves (h : Starves n s) : s.refillCore n = (true, s) := by
  obtain ⟨htaken, hcount⟩ := h
  unfold refillCore
  rw [if_neg (by rw [htaken]; decide), if_pos hcount]

/-- The free list without its head, and its head marked as the reserve: what a refill leaves but for KVP_RESERVE and KVP_STAT. -/
def popFree (s : State) (n : Nat) : State :=
  let d := s.pdesc n (s.fget F.KVP_FREE_HEAD n)
  ((d.2.fset F.KVP_FREE_HEAD n 0 d.1.link).fset F.KVP_FREE_COUNT n 0 (d.2.fget F.KVP_FREE_COUNT n - 1)).setPdesc n (s.fget F.KVP_FREE_HEAD n)
    { ref := 0, st := PG.RESERVE, link := PG.NONE }

theorem refillCore_refills (h : Refills n s) : s.refillCore n =
    (false, (((s.popFree n).fset F.KVP_RESERVE_PAGE n 0 (s.fget F.KVP_FREE_HEAD n)).fset F.KVP_RESERVE_VALID n 0 1).fset
      F.KVP_STAT_RSVTAKEN n 0 0) := by
  obtain ⟨htaken, hcount⟩ := h
  unfold refillCore
  rw [if_neg (by rw [htaken]; decide), if_neg hcount]
  rfl

theorem fget_count_popFree (s : State) (hn : n < 1024) : (s.popFree n).fget F.KVP_FREE_COUNT n = s.fget F.KVP_FREE_COUNT n - 1 := by
  have hlt : s.fget F.KVP_FREE_COUNT n < 2 ^ 13 := bits_lt ..
  unfold popFree
  extract_lets d
  have hd : d.2.fget F.KVP_FREE_COUNT n = s.fget F.KVP_FREE_COUNT n := (works_pdesc ..).fget hn books_free hn
  rw [(works_setPdesc ..).fget hn books_free hn, fget_fset_same _ _ _ _ _ (by decide) (by decide), hd]
  exact Nat.mod_eq_of_lt (Nat.lt_of_le_of_lt (Nat.sub_le ..) hlt)

theorem poolRegs_popFree_other (s : State) (hn : n < 1024) {i : Nat} (hi : i < 1024) (hne : i ≠ n) :
    poolRegs i (s.popFree n) = poolRegs i s := by
  unfold popFree
  extract_lets d
  have hd : poolRegs i d.2 = poolRegs i s := (works_pdesc ..).poolRegs hn hi
  rw [(works_setPdesc ..).poolRegs hn hi, poolRegs_fset_other _ books_free rfl hne, poolRegs_fset_other _ books_free rfl hne, hd]

/-- R255: the head of the free list becomes the reserve. -/
theorem refilled_refillCore (h : Refills n s) (hn : n < 1024) : Refilled n s (s.refillCore n).2 := by
  have hpage : s.fget F.KVP_FREE_HEAD n < 2 ^ 16 := bits_lt ..
  have hstat : ∀ f : Fld, f.reg = .KVP_FREE ∨ f.reg = .KVP_RESERVE → ∀ t : State,
      (t.fset F.KVP_STAT_RSVTAKEN n 0 0).fget f n = t.fget f n := by
    rintro f (hf | hf) t
    · exact fget_fset_ne _ F.KVP_STAT_RSVTAKEN f _ _ _ _ _ (by rw [hf]; exact books_free.addr_ne books_stat rfl (.inr (by decide)))
    · exact fget_fset_ne _ F.KVP_STAT_RSVTAKEN f _ _ _ _ _ (by rw [hf]; exact books_reserve.addr_ne books_stat rfl (.inr (by decide)))
  have hres : Reg.addr .KVP_FREE n 0 ≠ Reg.addr .KVP_RESERVE n 0 := books_free.addr_ne books_reserve rfl (.inr (by decide))
  rw [refillCore_refills h]
  refine ⟨?_, ?_, ?_, ?_⟩
  · rw [flag, fget_fset_same _ _ _ _ _ (by decide) (by decide)]
    rfl
  · rw [flag, hstat _ (.inr rfl), fget_fset_same _ _ _ _ _ (by decide) (by decide)]
    rfl
  · rw [hstat _ (.inr rfl), fget_fset_beside _ F.KVP_RESERVE_VALID F.KVP_RESERVE_PAGE _ _ _ rfl (by decide) (by decide) (by decide) (by decide),
      fget_fset_same _ _ _ _ _ (by decide) (by decide)]
    exact Nat.mod_eq_of_lt hpage
  · rw [hstat _ (.inl rfl), fget_fset_ne _ F.KVP_RESERVE_VALID F.KVP_FREE_COUNT _ _ _ _ _ hres,
      fget_fset_ne _ F.KVP_RESERVE_PAGE F.KVP_FREE_COUNT _ _ _ _ _ hres, fget_count_popFree s hn]

/-- What a refill finds: the reserve is there, or it is gone and the free list is empty or holds a page. -/
theorem full_or_starves_or_refills (n : Nat) (s : State) : s.flag F.KVP_STAT_RSVTAKEN n = false ∨ Starves n s ∨ Refills n s := by
  by_cases ht : s.flag F.KVP_STAT_RSVTAKEN n = true
  · by_cases hc : s.fget F.KVP_FREE_COUNT n = 0
    · exact .inr (.inl ⟨ht, hc⟩)
    · exact .inr (.inr ⟨ht, hc⟩)
  · exact .inl (Bool.eq_false_iff.mpr ht)

/-- The answer of a refill is whether the free list was empty. -/
theorem refillCore_fst (n : Nat) (s : State) : (s.refillCore n).1 = true ↔ Starves n s := by
  rcases full_or_starves_or_refills n s with h | h | h
  · simp [refillCore_full h, Starves, h]
  · simp [refillCore_starves h, h]
  · obtain ⟨_, hcount⟩ := id h
    simp [refillCore_refills h, Starves, hcount]

/-- A core without a reserve to refill, or without a page for it, stays as it is. -/
theorem refillCore_idle (h : ¬ Refills n s) : (s.refillCore n).2 = s := by
  rcases full_or_starves_or_refills n s with h' | h' | h'
  · rw [refillCore_full h']
  · rw [refillCore_starves h']
  · exact absurd h' h

/-- The refill of another core. -/
theorem poolRegs_refillCore_other (s : State) (hn : n < 1024) {i : Nat} (hi : i < 1024) (hne : i ≠ n) :
    poolRegs i (s.refillCore n).2 = poolRegs i s := by
  by_cases h : Refills n s
  · rw [refillCore_refills h, poolRegs_fset_other _ books_stat rfl hne, poolRegs_fset_other _ books_reserve rfl hne,
      poolRegs_fset_other _ books_reserve rfl hne, s.poolRegs_popFree_other hn hi hne]
  · rw [refillCore_idle h]

/-! ### The refill of the cores that a mask names -/

/-- One core of a refill: the cores found empty so far, and the state. -/
def refillStep (p : List Nat × State) (n : Nat) : List Nat × State :=
  (if (p.2.refillCore n).1 then n :: p.1 else p.1, (p.2.refillCore n).2)

theorem refillAll_foldl (s : State) (mask : List Byte) :
    s.refillAll mask = ((List.range 1024).filter (bitOf mask)).foldl refillStep ([], s) := rfl

/-- What a refill has of core `i`: its pool, and whether it was found empty. -/
def poolView (i : Nat) (p : List Nat × State) : List Nat × Bool := (poolRegs i p.2, decide (i ∈ p.1))

theorem poolView_eq_iff {i : Nat} {p q : List Nat × State} :
    poolView i p = poolView i q ↔ poolRegs i p.2 = poolRegs i q.2 ∧ (i ∈ p.1 ↔ i ∈ q.1) := by
  simp [poolView]

theorem poolView_refillStep_other (p : List Nat × State) (hn : n < 1024) {i : Nat} (hi : i < 1024) (hne : i ≠ n) :
    poolView i (refillStep p n) = poolView i p := by
  refine poolView_eq_iff.mpr ⟨p.2.poolRegs_refillCore_other hn hi hne, ?_⟩
  unfold refillStep
  dsimp only
  split <;> simp [hne]

theorem poolView_foldl_other (l : List Nat) (hl : ∀ m ∈ l, m < 1024) (p : List Nat × State) {i : Nat} (hi : i < 1024) (hne : i ∉ l) :
    poolView i (l.foldl refillStep p) = poolView i p :=
  foldl_keeps (poolView i) refillStep l p fun q m hm => poolView_refillStep_other q (hl m hm) hi fun e => hne (e ▸ hm)

/-- A core that is named once is refilled once, with its pool as the fold found it. -/
theorem poolView_foldl_mem {l : List Nat} (hl : ∀ m ∈ l, m < 1024) (hd : l.Nodup) (p : List Nat × State) {i : Nat} (hi : i < 1024)
    (hm : i ∈ l) :
    ∃ q, poolView i q = poolView i p ∧ poolView i (l.foldl refillStep p) = poolView i (refillStep q i) := by
  obtain ⟨a, b, rfl⟩ := List.append_of_mem hm
  obtain ⟨_, hb, hab⟩ := List.nodup_append.mp hd
  have hia : i ∉ a := fun h => hab i h i (by simp) rfl
  refine ⟨a.foldl refillStep p, poolView_foldl_other a (fun m h => hl m (by simp [h])) p hi hia, ?_⟩
  rw [List.foldl_append, List.foldl_cons]
  exact poolView_foldl_other b (fun m h => hl m (by simp [h])) _ hi (List.nodup_cons.mp hb).1

/-- R255: what a refill of the cores that a mask names answers and leaves, for each core. -/
theorem refillAll_spec (s : State) (mask : List Byte) (hn : n < 1024) :
    (n ∈ (s.refillAll mask).1 ↔ bitOf mask n = true ∧ Starves n s) ∧
    (bitOf mask n = true → Refills n s → Refilled n s (s.refillAll mask).2) ∧
    (bitOf mask n = false ∨ ¬ Refills n s → poolRegs n (s.refillAll mask).2 = poolRegs n s) := by
  have hl : ∀ m ∈ (List.range 1024).filter (bitOf mask), m < 1024 := fun m h => List.mem_range.mp (List.mem_filter.mp h).1
  have hmem : n ∈ (List.range 1024).filter (bitOf mask) ↔ bitOf mask n = true := by simp [hn]
  rw [refillAll_foldl]
  by_cases hb : bitOf mask n = true
  · obtain ⟨q, hq, he⟩ := poolView_foldl_mem hl (List.nodup_range.filter _) ([], s) hn (hmem.mpr hb)
    obtain ⟨hqp, hqe⟩ := poolView_eq_iff.mp hq
    obtain ⟨hep, hee⟩ := poolView_eq_iff.mp he
    have hmark : n ∈ (refillStep q n).1 ↔ Starves n s := by
      rw [← starves_congr hqp, ← refillCore_fst]
      unfold refillStep
      dsimp only
      split <;> simp_all
    refine ⟨by rw [hee, hmark]; simp [hb], fun _ hr => ?_, fun h => ?_⟩
    · exact (refilled_congr hqp hep.symm).mp (refilled_refillCore ((refills_congr hqp).mpr hr) hn)
    · have hr : ¬ Refills n q.2 := by
        rw [refills_congr hqp]
        exact h.resolve_left (by simp [hb])
      rw [hep, ← hqp]
      exact congrArg (poolRegs n) (refillCore_idle hr)
  · obtain ⟨hep, hee⟩ := poolView_eq_iff.mp (poolView_foldl_other _ hl ([], s) hn (mt hmem.mp hb))
    exact ⟨by rw [hee]; simp [hb], fun h => absurd h hb, fun _ => hep⟩

/-! ### The end of an attention call (R257, R259, R260, R262, R263) -/

/-- The bytes of a call's output: `none` where a row is poisoned. -/
def rowBytes (j : Job) (rows : List (Option (List Byte))) : Line :=
  rows.flatMap fun r => match r with
    | some l => l.map some
    | none => List.replicate j.rowLen none

theorem rowBytes_none (j : Job) (k : Nat) : rowBytes j (List.replicate k none) = List.replicate (k * j.rowLen) none := by
  rw [rowBytes, List.flatMap_replicate, List.flatten_replicate_replicate]

/-- A call that ends works on its core's scratch, writes `out` where its job says, and leaves the engine at the next record; a call
that began without a licence or with a poisoned record, or that met a mismatch, writes poison. -/
theorem attentionCall_spec (s : State) (n : Nat) (hit : Bool) {c : SaeCall} (hc : (s.saeOf n).call = some c) :
    ∃ (w : State) (out : Line), Works n s w ∧
      s.attentionCall n hit = (w.scratchPut n (jobOf c.job).out out).setSae n
        { next := (((w.scratchPut n (jobOf c.job).out out).saeOf n).next + 1) %
            max 1 ((w.scratchPut n (jobOf c.job).out out).fget F.KVP_SAEJOB_NJOB n) } ∧
      (hit = true ∨ c.pois = true ∨ c.lapsed = true →
        out = List.replicate ((jobOf c.job).g * (jobOf c.job).nq * (jobOf c.job).rowLen) none) := by
  unfold attentionCall
  rw [hc, Option.getD_some]
  extract_lets at_ c' j g ovr e t u pois
  have ht : Works n s t := by
    refine works_ite _ ?_ (Works.refl n s)
    exact (s.works_errKVP ..).trans (works_ite _ (Works.refl n e) (works_of_eq n rfl rfl rfl rfl rfl))
  have hu : Works n t u := works_ite _ ((t.works_errKVP ..).trans (works_raise _ n ..)) (Works.refl n t)
  refine ⟨(if pois = true then (List.replicate (j.g * j.nq) none, u) else u.attention n j g).2,
    rowBytes j (if pois = true then (List.replicate (j.g * j.nq) none, u) else u.attention n j g).1, ?_, rfl, fun h => ?_⟩
  · refine (ht.trans hu).trans ?_
    split
    · exact Works.refl n u
    · exact u.works_attention n j g
  · have hp : pois = true := by
      simp only [pois, Bool.or_eq_true]
      rcases h with hhit | hrec | hlapse
      · exact .inl (.inr hhit)
      · exact .inr hrec
      · exact .inl (.inl (.inl (.inl hlapse)))
    rw [if_pos hp, rowBytes_none]

theorem saeOf_congr {s t : State} (h : t.sae = s.sae) (n : Nat) : t.saeOf n = s.saeOf n := by
  unfold saeOf
  rw [h]

theorem saeOf_setSae_same (s : State) (n : Nat) (v : Sae) : (s.setSae n v).saeOf n = v := smGet_smPut_same ..

theorem saeOf_setSae_other (s : State) {n m : Nat} (v : Sae) (h : m ≠ n) : (s.setSae n v).saeOf m = s.saeOf m := smGet_smPut_ne _ _ _ h _

/-- An engine that is ready has a call in hand whose cycles are over, on a core that has not failed. -/
theorem saeReady_call {s : State} {n : Nat} (h : s.saeReady n = true) :
    s.failed n = false ∧ ∃ c, (s.saeOf n).call = some c ∧ c.last < s.now := by
  unfold saeReady at h
  cases hc : (s.saeOf n).call with
  | none => simp [hc] at h
  | some c =>
    simp only [hc, Bool.and_eq_true, Bool.not_eq_true', decide_eq_true_eq] at h
    exact ⟨h.1.2, c, rfl, h.2⟩

/-- The state in which a call ends: a mismatch is reported first (R150, R260). -/
def withHit (s : State) (core : Fin 1024) (hit : Bool) : State :=
  if hit = true then s.residueHit { core := core, unit := 6, check := 1, lane := 0, row := 0, part := 0 } else s

theorem works_withHit (s : State) (core : Fin 1024) (hit : Bool) : Works core s (s.withHit core hit) :=
  works_ite _ (s.works_residueHit { core := core, unit := 6, check := 1, lane := 0, row := 0, part := 0 }) (Works.refl _ s)

/-- What is left of a call that has ended: work on the core's scratch, and the engine at the next record of its list. -/
theorem attentionCall_works (s : State) (core : Fin 1024) (hit : Bool) {c : SaeCall} (hc : (s.saeOf core).call = some c) :
    ∃ w, Works core s w ∧ s.attentionCall core hit =
      w.setSae core { next := ((s.saeOf core).next + 1) % max 1 (s.fget F.KVP_SAEJOB_NJOB core) } := by
  obtain ⟨w, out, hw, he, _⟩ := s.attentionCall_spec core hit hc
  have hput := hw.trans (w.works_scratchPut core (jobOf c.job).out out)
  refine ⟨_, hput, he.trans ?_⟩
  rw [saeOf_congr hput.sae, hput.fget core.isLt books_saejob core.isLt]

/-- The output of a call that is poisoned, at OUT of its job record (R259, R263). -/
theorem attentionCall_poisoned (s : State) (core : Fin 1024) (hit : Bool) {c : SaeCall} (hc : (s.saeOf core).call = some c)
    (hf : s.failed core = false) (hp : hit = true ∨ c.pois = true ∨ c.lapsed = true) {i : Nat}
    (hout : (jobOf c.job).out + (jobOf c.job).g * (jobOf c.job).nq * (jobOf c.job).rowLen ≤ 0x180000)
    (hi : i < (jobOf c.job).g * (jobOf c.job).nq * (jobOf c.job).rowLen) :
    (s.attentionCall core hit).Poisoned (scratchAddr core ((jobOf c.job).out + i)) := by
  obtain ⟨w, out, hw, he, hpois⟩ := s.attentionCall_spec core hit hc
  rw [he, hpois hp]
  exact poisoned_congr (setSae_gpois ..) (w.poisoned_scratchPut core.isLt ((hw.failed core.isLt).trans hf) hout hi)

end State

/-! ### The commands -/

theorem execAttentionCall_eq (s : State) (core : Fin 1024) (hit : Bool) (h : s.saeReady core = true) :
    exec (.attentionCall core hit) s = .next (s.finish ((s.withHit core hit).attentionCall core hit)) := by
  rw [exec_attentionCall]
  exact s.when_true _ _ h

/-- KV_REFILL that nothing refuses: its body acts in the state in which it is taken, and its answer follows. -/
theorem execKvRefill_eq (s : State) (h : EcpHdr) (mask : BitVec 1024) (hh : s.hears h.qp = true)
    (ht : Takes s h OP.KV_REFILL GRP_PAGES false false) : exec (.kvRefill h mask) s =
      .next (s.finish (((s.taken h).refillCmd (leBytes 128 mask.toNat)).1.answer h OP.KV_REFILL GRP_PAGES [] (leBytes 128 mask.toNat)
        ((s.taken h).refillCmd (leBytes 128 mask.toNat)).2)) := by
  rw [exec_kvRefill, execKvRefill, s.when_true _ _ hh, s.ecp_takes h _ _ _ _ _ _ _ ht]

namespace State

theorem refillCmd_running {s : State} (h : s.running = true) (m : List Byte) : s.refillCmd m = (s, none) := by
  unfold refillCmd
  exact if_pos h

theorem refillCmd_stopped {s : State} (h : s.running = false) (m : List Byte) :
    s.refillCmd m = ((s.refillAll m).2, some (refillAnswer (s.refillAll m).1)) := by
  unfold refillCmd
  rw [if_neg (by rw [h]; decide)]

theorem taken_str (s : State) (h : EcpHdr) : (s.taken h).str = s.str := by
  have hmark : (s.ceMark h.qp).str = s.str := by unfold ceMark; dsimp only; (repeat' split) <;> simp
  unfold taken
  rw [bump_str]
  split
  · exact hmark
  · rfl

theorem taken_running (s : State) (h : EcpHdr) : (s.taken h).running = s.running := by
  unfold running
  rw [taken_str]

/-- Taking a command leaves the page books. -/
theorem taken_rget_books (s : State) (h : EcpHdr) {r : Reg} (hr : r.Books) {i : Nat} (hi : i < 1024) :
    (s.taken h).rget r i = s.rget r i := by
  obtain ⟨hg, hb⟩ := hr
  refine s.rget_taken h r i 0 ?_ fun p hp => ?_
  · rw [r.addr_inst hg, Reg.addr_inst .ECP_CMDCNT rfl, show Reg.info .ECP_CMDCNT = { blk := 18, glob := false, off := 0x20 } from rfl]
    dsimp only
    omega
  · rw [r.addr_inst hg, addr_cnpcnt]
    omega

theorem taken_poolRegs (s : State) (h : EcpHdr) {n : Nat} (hn : n < 1024) : poolRegs n (s.taken h) = poolRegs n s :=
  poolRegs_eq_iff.mpr ⟨s.taken_rget_books h books_free hn, s.taken_rget_books h books_reserve hn, s.taken_rget_books h books_stat hn⟩

end State

/-- R255: the cores that KV_REFILL names, of which it refills those whose reserve is gone, and names those without a page. -/
theorem kvRefill_spec (s : State) (h : EcpHdr) (mask : BitVec 1024) {n : Nat} (hn : n < 1024) :
    let u := (s.taken h).refillAll (leBytes 128 mask.toNat)
    (n ∈ u.1 ↔ mask.getLsbD n = true ∧ State.Starves n s) ∧
    (mask.getLsbD n = true → State.Refills n s → State.Refilled n s u.2) ∧
    (mask.getLsbD n = false ∨ ¬ State.Refills n s → State.poolRegs n u.2 = State.poolRegs n s) := by
  have hp := s.taken_poolRegs h hn
  have hall := (s.taken h).refillAll_spec (leBytes 128 mask.toNat) hn
  rw [bitOf_mask mask hn, State.starves_congr hp, State.refills_congr hp, State.refilled_congr hp rfl, hp] at hall
  exact hall

/-- A core that a refill finds empty is one of the 1,024. -/
theorem refillAll_lt (s : State) (mask : List Byte) {n : Nat} (h : n ∈ (s.refillAll mask).1) : n < 1024 := by
  rw [State.refillAll_foldl] at h
  refine List.foldlRecOn (motive := fun p : List Nat × State => ∀ n ∈ p.1, n < 1024) _ State.refillStep (by simp) (fun p hp m hm => ?_) n h
  have hm' : m < 1024 := List.mem_range.mp (List.mem_filter.mp hm).1
  unfold State.refillStep
  dsimp only
  split
  · exact List.forall_mem_cons.mpr ⟨hm', hp⟩
  · exact hp

/-- An attention call in hand whose cycles have run ends so. -/
theorem attentionCall_ends (s : State) (core : Fin 1024) (hit : Bool) {c : SaeCall} (hc : (s.saeOf core).call = some c)
    (hf : s.failed core = false) :
    let t := s.finish ((s.withHit core hit).attentionCall core hit)
    t.saeOf core = { next := ((s.saeOf core).next + 1) % max 1 (s.fget F.KVP_SAEJOB_NJOB core) } ∧
    t.fget F.KVP_SAEJOB_NJOB core = s.fget F.KVP_SAEJOB_NJOB core ∧
    (∀ n, n ≠ core.val → t.saeOf n = s.saeOf n) ∧ t.str = s.str ∧
    (∀ a, a < scratchAddr core 0 ∨ scratchAddr core 0x180000 ≤ a → t.byte a = s.byte a) ∧
    (hit = true ∨ c.pois = true ∨ c.lapsed = true →
      (jobOf c.job).out + (jobOf c.job).g * (jobOf c.job).nq * (jobOf c.job).rowLen ≤ 0x180000 →
      ∀ i < (jobOf c.job).g * (jobOf c.job).nq * (jobOf c.job).rowLen, t.Poisoned (scratchAddr core ((jobOf c.job).out + i))) := by
  have hhit := s.works_withHit core hit
  have hc' : ((s.withHit core hit).saeOf core).call = some c := by rw [State.saeOf_congr hhit.sae, hc]
  obtain ⟨w, hw, he⟩ := (s.withHit core hit).attentionCall_works core hit hc'
  rw [State.saeOf_congr hhit.sae, hhit.fget core.isLt State.books_saejob core.isLt] at he
  have hsw := hhit.trans hw
  intro t
  have hsae (n : Nat) : t.saeOf n = ((s.withHit core hit).attentionCall core hit).saeOf n := State.saeOf_congr (State.finish_sae ..) n
  refine ⟨?_, ?_, fun n hn => ?_, ?_, fun a ha => ?_, fun hp hout i hi => ?_⟩
  · rw [hsae, he, State.saeOf_setSae_same]
  · rw [State.finish_fget _ _ F.KVP_SAEJOB_NJOB _ _ (State.books_saejob.not_mem_reportRegs core.isLt), he, State.fget_congr (State.setSae_regs ..)]
    exact hsw.fget core.isLt State.books_saejob core.isLt
  · rw [hsae, he, State.saeOf_setSae_other _ _ hn, State.saeOf_congr hsw.sae]
  · rw [State.finish_str, he, State.setSae_str, hsw.str]
  · rw [State.byte_congr (State.finish_mem ..) (State.finish_undef ..), he, State.byte_congr (State.setSae_mem ..) (State.setSae_undef ..)]
    exact hsw.byte a ha
  · have hf' : (s.withHit core hit).failed core = false := (hhit.failed core.isLt).trans hf
    exact State.poisoned_congr (State.finish_gpois ..) (State.attentionCall_poisoned _ core hit hc' hf' hp hout hi)

/-- Settles O27: a refill decides for each core by that core's own registers, which no other core's refill writes; a call that ends is work on
its core's scratch and the engine's next record, and poison written there stays, as no write of poison clears a mark. That a poisoned record
poisons its call's output is the model's reading (log entry 73). -/
theorem kvRefillAndAttentionCalls : Obligations.KvRefillAndAttentionCalls := by
  refine ⟨fun s h mask hh ht => ?_, fun s core hit hr => ?_⟩
  · have hexec := execKvRefill_eq s h mask hh ht
    refine ⟨fun hr => ?_, fun hr => ?_, fun n => ⟨fun hm => ?_, fun ⟨hn, hb, hs⟩ => ?_⟩,
      fun n hn => ⟨fun ⟨hb, hr⟩ => ?_, fun hc => ?_⟩⟩
    · rw [hexec, State.refillCmd_running ((s.taken_running h).trans hr)]
    · rw [hexec, State.refillCmd_stopped ((s.taken_running h).trans hr)]
    · have hn := refillAll_lt _ _ hm
      exact ⟨hn, (kvRefill_spec s h mask hn).1.mp hm⟩
    · exact (kvRefill_spec s h mask hn).1.mpr ⟨hb, hs⟩
    · exact (kvRefill_spec s h mask hn).2.1 hb hr
    · refine State.poolRegs_eq_iff.mp ((kvRefill_spec s h mask hn).2.2 (hc.imp_right ?_))
      rintro (hfull | hempty) ⟨htaken, hcount⟩
      · exact Bool.false_ne_true (hfull.symm.trans htaken)
      · exact hcount hempty
  · obtain ⟨hf, c, hc, hlast⟩ := State.saeReady_call hr
    obtain ⟨hsae, hnjob, hother, hstr, hbyte, hpois⟩ := attentionCall_ends s core hit hc hf
    refine ⟨_, execAttentionCall_eq s core hit hr, rfl, ?_, hsae, hother, hstr, hbyte, c, hc, hlast, hpois⟩
    rw [hsae, hnjob]
    exact Nat.mod_lt _ (Nat.lt_of_lt_of_le Nat.zero_lt_one (Nat.le_max_left ..))

end Sys2Proof.Machine
end
